-- ==== Sys2Proof/Word.lean ====
section
/-! DEFINITION. Word.lean: the plain widths of the block and its encoding spaces (10_state.md, 30_encoding.md). -/

namespace Sys2Proof

/-- An 8-bit unsigned value: a character code, a segment pattern, a wire byte (R8). -/
abbrev Byte := BitVec 8

/-- A pin identifier of `PIN_W` = 8 bits (R22, R55). -/
abbrev PinId := BitVec 8

/-- A request word of `REQ_W` = 43 bits (R73). -/
abbrev ReqWord := BitVec 43

/-- The four formats of the opcode table's rows (R91). -/
inductive Format where
  | req      -- a request word of the request port
  | wire     -- a command byte the block sends to the chip
  | phase    -- a procedure of the sequencer, by its phase code
  | lookup   -- the font look-up, by its character input
  deriving DecidableEq, Repr

/-- A word in one of the four encoding spaces (R91). Which space a word lies in is given by where
the block meets it (the request port, the wire, the `phase` register, the look-up's input), never
by its bits. -/
inductive RawWord where
  | req    (w : ReqWord)
  | wire   (b : Byte)
  | phase  (p : BitVec 3)
  | lookup (c : Byte)
  deriving DecidableEq, Repr

end Sys2Proof
end

