-- ==== Sys2Proof/Config.lean ====
section
/-! DEFINITION. Config.lean: the parameters of 00_scope.md R6 and R7. The three open ones are the
fields of `Params`; an instance carries its `Params` unchanged for life. Their default values stand
in Machine/Defaults.lean. -/

namespace Sys2Proof

/-- `FRAME_MODE`: how a show request travels (R6, R144). -/
inductive FrameMode where
  | single    -- one frame of six bytes, the normative form
  | legacy3   -- three frames of one, one and four bytes
  deriving DecidableEq, Repr

/-- A font table (R7). `symbolCount` is not stored beside `patterns`: R7 makes it the length of
`patterns`, so it is defined as that length and a table that breaks R7 cannot be written. -/
structure FontTable where
  baseChar : Byte
  patterns : List Byte
  deriving DecidableEq, Repr

/-- "number of consecutive codes covered" (R7). -/
def FontTable.symbolCount (f : FontTable) : Nat := f.patterns.length

/-- The open parameters of R6: `CLOCK_DELAY` in microseconds, `FONTS`, `FRAME_MODE`. -/
structure Params where
  clockDelay : Nat
  fonts      : List FontTable
  frameMode  : FrameMode
  deriving DecidableEq, Repr

/-- `NFONTS`, the length of `FONTS` (R6). -/
def Params.nFonts (p : Params) : Nat := p.fonts.length

/-- `DIGIT_COUNT` (R6). -/
def digitCount : Nat := 4

/-- `TXBUF_LEN` (R6). -/
def txBufLen : Nat := 6

end Sys2Proof
end

