-- ==== Sys2Proof/Machine/Defaults.lean ====
section
/-! DEFINITION. Machine/Defaults.lean: the values 00_scope.md R6 and R7 give the parameters. -/

namespace Sys2Proof.Machine

/-- `FONT_DEC` (R7; its ten numbers are marked there as general knowledge, 93_implementation_defined.md G1). -/
def fontDec : FontTable where
  baseChar := 0x30#8
  patterns := [0x3F#8, 0x06#8, 0x5B#8, 0x4F#8, 0x66#8, 0x6D#8, 0x7D#8, 0x07#8, 0x7F#8, 0x6F#8]

/-- The default values of the open parameters (R6): `CLOCK_DELAY` 0, `FONTS` `[FONT_DEC]`, `FRAME_MODE` `single`. -/
def defaultParams : Params where
  clockDelay := 0
  fonts := [fontDec]
  frameMode := .single

end Sys2Proof.Machine
end

