-- ==== Sys2Proof/Syntax.lean ====
section
/-! DEFINITION. Syntax.lean: one constructor per row of spec/opcode_table.json. Operands have exactly
the widths of 30_encoding.md R74 to R78; ignored operand bits (R85) are no operands. -/

namespace Sys2Proof

/-- The rows of the opcode table. -/
inductive Instr where
  /-- `INIT clockPin, dataPin, fontSel` (R74, R140). -/
  | init (clockPin dataPin : PinId) (fontSel : Byte)
  /-- `BRIGHT level` (R75, R142). -/
  | bright (level : Byte)
  /-- `DIGITS text`, five character codes (R76, R145). -/
  | digits (t0 t1 t2 t3 t4 : Byte)
  /-- `INT value` (R77, R148). -/
  | int (value : BitVec 16)
  /-- `COLON enabled` (R78, R151). -/
  | colon (enabled : BitVec 1)
  /-- Reserved opcode 0b101 (R84). -/
  | reserved5
  /-- Reserved opcode 0b110 (R84). -/
  | reserved6
  /-- Reserved opcode 0b111 (R84). -/
  | reserved7
  /-- Wire command byte 0x40 (R80). -/
  | cmdData
  /-- Wire command byte 0xC0 (R81). -/
  | cmdAddr
  /-- Wire command byte 0x80, display off (R82). -/
  | cmdCtrlOff
  /-- Wire command byte 0x88 | (k - 1), display on at brightness k (R82). -/
  | cmdCtrlOn (kMinus1 : BitVec 3)
  /-- Phase 0b001, the pin set-up of `INIT` (R125, R141). -/
  | pinit
  /-- Phase 0b010, transaction start (R110, R121). -/
  | wstart
  /-- Phase 0b011, shift one byte out (R112, R122). -/
  | wshift
  /-- Phase 0b100, the acknowledgement clock pulse (R113, R123). -/
  | wack
  /-- Phase 0b101, transaction stop (R111, R124). -/
  | wstop
  /-- The font look-up of one character code (R100). -/
  | encode (c : Byte)
  deriving DecidableEq, Repr

/-- The format column of the opcode table (R91). -/
def Instr.format : Instr → Format
  | .init _ _ _ => .req
  | .bright _ => .req
  | .digits _ _ _ _ _ => .req
  | .int _ => .req
  | .colon _ => .req
  | .reserved5 => .req
  | .reserved6 => .req
  | .reserved7 => .req
  | .cmdData => .wire
  | .cmdAddr => .wire
  | .cmdCtrlOff => .wire
  | .cmdCtrlOn _ => .wire
  | .pinit => .phase
  | .wstart => .phase
  | .wshift => .phase
  | .wack => .phase
  | .wstop => .phase
  | .encode _ => .lookup

end Sys2Proof
end

