-- ==== Sys2Proof/WellFormed.lean ====
section
/-! DEFINITION. WellFormed.lean: which words of the four encoding spaces are a row of the opcode
table. An instruction term itself is always well formed: its operand types have exactly the widths
of R74 to R78 and R82 (the check that `INIT`'s `fontSel` is below `NFONTS` is made when the request
runs, R174). -/

namespace Sys2Proof

/-- The format a word is read in. -/
def RawWord.format : RawWord → Format
  | .req _ => .req
  | .wire _ => .wire
  | .phase _ => .phase
  | .lookup _ => .lookup

/-- Whether a word is a row of the opcode table: every request word (R73, R84) and every character
code (R100) is; a wire byte is when it is 0x40, 0xC0, 0x80 or 0x88 to 0x8F (R80 to R82, R87); a
phase code is when it is 0b001 to 0b101 (R34). -/
def RawWord.wellFormed : RawWord → Bool
  | .req _ => true
  | .wire b => decide (b.toNat = 0x40 ∨ b.toNat = 0xC0 ∨ b.toNat = 0x80 ∨ (0x88 ≤ b.toNat ∧ b.toNat ≤ 0x8F))
  | .phase p => decide (1 ≤ p.toNat ∧ p.toNat ≤ 5)
  | .lookup _ => true

/-- The bits of a request word with a given opcode that are not marked "ignored" in R74 to R78 (and, for
a reserved opcode, the opcode alone, R84). -/
def meaningfulBits (op : BitVec 3) : ReqWord :=
  match op.toNat with
  | 0 => 0x70000FFFFFF#43
  | 1 => 0x700000000FF#43
  | 2 => 0x7FFFFFFFFFF#43
  | 3 => 0x7000000FFFF#43
  | 4 => 0x70000000001#43
  | _ => 0x70000000000#43

end Sys2Proof
end

