-- ==== Sys2Proof/Machine/State.lean ====
section
/-! DEFINITION. Machine/State.lean: every piece of state of 10_state.md (R20 to R35), as plain data, the
events of R10, the reasons a step can stop, and the state after reset (R43, R200). -/

namespace Sys2Proof.Machine

/-- One call of the pin collaborator (R10). A level `true` is high, `false` is low. -/
inductive Event where
  | cfg (p : PinId)              -- `Cfg(p)`: configure the pin as push-pull output
  | w   (p : PinId) (l : Bool)   -- `W(p, l)`: drive the pin
  | s   (d : Nat)                -- `S(d)`: sleep at least `d` microseconds
  deriving DecidableEq, Repr

/-- `lifecycle` (R21). -/
inductive Lifecycle where
  | uninitialized
  | initialized
  deriving DecidableEq, Repr

/-- `status` (R27, R171). `ackFail` is code 3, "reserved for an acknowledgement failure and never produced". -/
inductive Status where
  | ok
  | misuse
  | illegal
  | ackFail
  deriving DecidableEq, Repr

/-- `phase` (R34); the codes 0b110 and 0b111 are never taken and have no name. -/
inductive Phase where
  | idle
  | pinit
  | pstart
  | pshift
  | pack
  | pstop
  deriving DecidableEq, Repr

/-- What the running request still has to send after the frame in flight (R124, R144, `legacy3` only).
State the spec implies and gives no register for [DESIGN CHOICE, log 3]. -/
inductive Further where
  | nothing
  | addrFrame   -- the frame `[0xC0]`, then the segment frame
  | segFrame    -- the frame `[seg[0], seg[1], seg[2], seg[3]]`
  deriving DecidableEq, Repr

/-- The segment buffer `seg[0..3]` (R25). -/
structure SegBuf where
  d0 : Byte
  d1 : Byte
  d2 : Byte
  d3 : Byte
  deriving DecidableEq, Repr

/-- The transmit buffer `txBuf[0..5]` (R30). -/
structure TxBuf where
  e0 : Byte
  e1 : Byte
  e2 : Byte
  e3 : Byte
  e4 : Byte
  e5 : Byte
  deriving DecidableEq, Repr

/-- A row of the opcode table without request opcode and phase code, called directly: the model's own
input [DESIGN CHOICE, log 5]. -/
inductive DirectWord where
  | wire (b : Byte)
  | lookup (c : Byte)
  deriving DecidableEq, Repr

/-- Why the machine stops with a fault. All three are raised only in states that no run from reset
reaches; each is safe: the spec gives no step there. -/
inductive Fault where
  /-- Raised by the fetch and by the phase procedures at a position the rules never give (R33, R126).
  Safe: the model stops where the spec has no step. -/
  | position
  /-- Raised by `DIGITS`, `INT` and `ENCODE` when `FONTS[fontSel]` does not exist (R24 rules it out).
  Safe: the model stops. -/
  | fontIndex
  /-- Raised by `WSTART` and `WACK` when the next byte would be read outside `txBuf[0..5]` (R53 rules
  it out). Safe: the model stops. -/
  | txIndex
  deriving DecidableEq, Repr

/-- Why the machine gives no meaning. -/
inductive Refusal where
  /-- Raised by exec's arm of an instruction that has no meaning yet. Safe: nothing is claimed. -/
  | notModelled (mnemonic : String)
  /-- Raised by step when a wire byte that is no row of the opcode table is called directly (R82).
  Safe: nothing is claimed. -/
  | notACommand (b : Byte)
  deriving DecidableEq, Repr

/-- The state of one instance with its parameters and the host's inputs. -/
structure State where
  /-- The instance's parameters (R6); written by no step (log 1). -/
  params    : Params
  lifecycle : Lifecycle
  clockPin  : PinId
  dataPin   : PinId
  fontSel   : Byte
  seg       : SegBuf
  status    : Status
  ackAcc    : Bool
  busy      : Bool
  txBuf     : TxBuf
  txLen     : BitVec 3
  txIdx     : BitVec 3
  shreg     : Byte
  bitCnt    : BitVec 4
  phase     : Phase
  step      : BitVec 3
  /-- Implied by R124 and R144 (log 3). -/
  further   : Further
  /-- The event trace `T` (R35), oldest first. -/
  trace     : List Event
  /-- The requests the host has still to present (R206); its head is `req_word`, its non-emptiness
  `req_valid` (R70) (log 2). -/
  hostReqs  : List ReqWord
  /-- The host asserts reset (R190, R202) (log 4). -/
  resetIn   : Bool
  /-- A directly called table row (log 5). -/
  direct    : Option DirectWord
  /-- The byte a directly called `ENCODE` returned (log 6). -/
  lookupOut : Byte
  deriving DecidableEq, Repr

/-- The reset values of R43 for an instance with parameters `p`, no input of the host pending. -/
def State.resetWith (p : Params) : State where
  params := p
  lifecycle := .uninitialized
  clockPin := 0
  dataPin := 0
  fontSel := 0
  seg := ⟨0, 0, 0, 0⟩
  status := .ok
  ackAcc := true
  busy := false
  txBuf := ⟨0, 0, 0, 0, 0, 0⟩
  txLen := 0
  txIdx := 0
  shreg := 0
  bitCnt := 0
  phase := .idle
  step := 0
  further := .nothing
  trace := []
  hostReqs := []
  resetIn := false
  direct := none
  lookupOut := 0

/-- The machine right after reset (R43, R200), with the default parameters of R6. -/
def State.reset : State := State.resetWith defaultParams

/-- The outcome of an operation. -/
abbrev Result := Host.Outcome State Fault Refusal

end Sys2Proof.Machine
end

