-- ==== Sys2Proof/Machine/Ops.lean ====
section
/-! DEFINITION. Machine/Ops.lean: the named operations over registers, buffers, the trace and the
sequencer position; raising an error (R172, R174, R179); asserting reset (R200). -/

namespace Sys2Proof.Machine

/-- The 3-bit code of a phase (R34). -/
def Phase.code : Phase → BitVec 3
  | .idle => 0b000#3
  | .pinit => 0b001#3
  | .pstart => 0b010#3
  | .pshift => 0b011#3
  | .pack => 0b100#3
  | .pstop => 0b101#3

/-- The phase of a code; the two codes never taken have none (R34). -/
def Phase.ofCode (c : BitVec 3) : Option Phase :=
  match c.toNat with
  | 0 => some .idle
  | 1 => some .pinit
  | 2 => some .pstart
  | 3 => some .pshift
  | 4 => some .pack
  | 5 => some .pstop
  | _ => none

/-- `seg[i]` (R9, R25). -/
def SegBuf.get (b : SegBuf) (i : Fin 4) : Byte :=
  match i with
  | 0 => b.d0
  | 1 => b.d1
  | 2 => b.d2
  | 3 => b.d3

/-- `seg[i] <- v` (R9, R25). -/
def SegBuf.set (b : SegBuf) (i : Fin 4) (v : Byte) : SegBuf :=
  match i with
  | 0 => { b with d0 := v }
  | 1 => { b with d1 := v }
  | 2 => { b with d2 := v }
  | 3 => { b with d3 := v }

/-- The four segment bytes in sending order (R56). -/
def SegBuf.toList (b : SegBuf) : List Byte := [b.d0, b.d1, b.d2, b.d3]

/-- The six entries in sending order (R53). -/
def TxBuf.toList (b : TxBuf) : List Byte := [b.e0, b.e1, b.e2, b.e3, b.e4, b.e5]

/-- `txBuf[i]`, none outside 0 to 5 (R50). -/
def TxBuf.get? (b : TxBuf) (i : Nat) : Option Byte := b.toList[i]?

/-- `txBuf[i] <- v` (R9). -/
def TxBuf.set (b : TxBuf) (i : Nat) (v : Byte) : TxBuf :=
  match i with
  | 0 => { b with e0 := v }
  | 1 => { b with e1 := v }
  | 2 => { b with e2 := v }
  | 3 => { b with e3 := v }
  | 4 => { b with e4 := v }
  | 5 => { b with e5 := v }
  | _ => b

/-- `txBuf[i], txBuf[i+1], ... <- bytes`; the other entries keep their values. -/
def TxBuf.loadAt (b : TxBuf) (i : Nat) : List Byte → TxBuf
  | [] => b
  | v :: vs => TxBuf.loadAt (b.set i v) (i + 1) vs

/-- `emit(e)` (R10, R35). -/
def emit (e : Event) (s : State) : State := { s with trace := s.trace ++ [e] }

/-- The event `S`, a sleep of `CLOCK_DELAY` (R10, R127). -/
def sleepEvent (s : State) : Event := .s s.params.clockDelay

/-- `W(C, l)` (R10). -/
def clockWrite (l : Bool) (s : State) : Event := .w s.clockPin l

/-- `W(D, l)` (R10). -/
def dataWrite (l : Bool) (s : State) : Event := .w s.dataPin l

/-- `phase <- p; step <- k` (R9, R33). -/
def goTo (p : Phase) (k : BitVec 3) (s : State) : State := { s with phase := p, step := k }

/-- Frame assembly and the start of a `WFRAME` (R120, R142, R144): the bytes and their count into
`txBuf` and `txLen`, `busy <- 1`, `ackAcc <- 1`, `txIdx <- 0`, position (`PSTART`, 0); `more` is
what the request sends afterwards (R124). -/
def startFrame (bytes : List Byte) (more : Further) (s : State) : State :=
  { s with
    txBuf := s.txBuf.loadAt 0 bytes
    txLen := BitVec.ofNat 3 bytes.length
    busy := true
    ackAcc := true
    txIdx := 0
    phase := .pstart
    step := 0
    further := more }

/-- The end of a request that ran its body (R72, R124, R125): `status <- OK`, `busy <- 0`, (`IDLE`, 0). -/
def finish (s : State) : State := { s with status := .ok, busy := false, phase := .idle, step := 0 }

/-- Load the byte `txBuf[i]` for shifting (R121, R123): `shreg <- txBuf[i]`, `bitCnt <- 0`, (`PSHIFT`, 0). -/
def loadShift (i : Nat) (s : State) : Result :=
  match s.txBuf.get? i with
  | none => .fault .txIndex
  | some b => .next { s with shreg := b, bitCnt := 0, phase := .pshift, step := 0 }

/-- An error entry (R179): its whole effect is `status <- code`. -/
def raiseError (code : Status) (s : State) : Result := .next { s with status := code }

/-- `raise Misuse` (R172). -/
def raiseMisuse (s : State) : Result := raiseError .misuse s

/-- `raise Illegal` (R174). -/
def raiseIllegal (s : State) : Result := raiseError .illegal s

/-- Acceptance (R72, R120): a request is taken only while `busy = 0`; while `busy = 1` it is not
accepted and has no effect. -/
def whenIdle (s : State) (body : Result) : Result := if s.busy then .next s else body

/-- The lifecycle check of a content or brightness operation (R139, R172, R178). -/
def whenInitialized (s : State) (body : Result) : Result :=
  match s.lifecycle with
  | .uninitialized => raiseMisuse s
  | .initialized => body

/-- A sequencer step is enabled only while `busy = 1` and in its own phase (R126). -/
def inPhase (p : Phase) (s : State) (body : Result) : Result :=
  if s.busy = true ∧ s.phase = p then body else .fault .position

/-- Asserting reset (R200, R202): every register at its reset value and a new empty trace; the
parameters and the host's pending requests are outside the block and stay (log 4). -/
def assertReset (s : State) : State :=
  { State.resetWith s.params with hostReqs := s.hostReqs, direct := s.direct }

/-- `req_ready`, equal to `not busy` (R70). -/
def reqReady (s : State) : Bool := !s.busy

/-- The observation of the block (R11): the trace and the host-visible registers. -/
def observe (s : State) : List Event × Status × Bool × Bool := (s.trace, s.status, s.ackAcc, s.busy)

end Sys2Proof.Machine
end

