-- ==== Sys2Proof/Machine/Operands.lean ====
section
/-! DEFINITION. Machine/Operands.lean: what the requests compute from their operands: the font look-up
(R100), the control byte (R143), the text positions (R145), the decimal digits (R148), the colon bit
(R26, R151), and the constants of R6 and R80 to R82. -/

namespace Sys2Proof.Machine

/-- `CHAR_0` (R6). -/
def charZero : Byte := 0x30#8

/-- `CHAR_COLON` (R6). -/
def charColon : Byte := 0x3A#8

/-- `CMD_DATA` (R80). -/
def cmdDataByte : Byte := 0x40#8

/-- `CMD_ADDR` with offset 0 (R81). -/
def cmdAddrByte : Byte := 0xC0#8

/-- `CMD_CTRL`, display off (R82). -/
def cmdCtrlOffByte : Byte := 0x80#8

/-- `CMD_CTRL`, display on: `0x88 | (k - 1)`, given `k - 1` (R82). -/
def cmdCtrlOnByte (kMinus1 : Byte) : Byte := 0x88#8 ||| kMinus1

/-- `MemRead(f, i, 1)` (R9, R51); it is legal, and made, only for `i < symbolCount`. -/
def romRead (f : FontTable) (i : Nat) : Byte := f.patterns.getD i 0

/-- `ENCODE(c)` in the font `f` (R100), comparisons on natural numbers (D32). -/
def encodeChar (f : FontTable) (c : Byte) : Byte :=
  if f.baseChar.toNat ≤ c.toNat ∧ c.toNat < f.baseChar.toNat + f.symbolCount then
    romRead f (c.toNat - f.baseChar.toNat)
  else 0x00#8

/-- `FONTS[fontSel]` (R24). -/
def selectedFont (s : State) : Option FontTable := s.params.fonts[s.fontSel.toNat]?

/-- Run a body that looks characters up in the selected font. -/
def withFont (s : State) (body : FontTable → Result) : Result :=
  match selectedFont s with
  | none => .fault .fontIndex
  | some f => body f

/-- `k <- min(level, 8)` (R142). -/
def clampLevel (level : Byte) : Nat := min level.toNat 8

/-- `CTRLBYTE(k)` (R143). -/
def ctrlByte (k : Nat) : Byte :=
  if k = 0 then cmdCtrlOffByte else cmdCtrlOnByte (BitVec.ofNat 8 (k - 1))

/-- The colon bit, bit 7 of a segment byte (R26). -/
def colonMask : Byte := 0x80#8

/-- Force the colon bit of a segment byte to `enabled` (R151). -/
def forceColon (enabled : BitVec 1) (b : Byte) : Byte :=
  if enabled = 1#1 then b ||| colonMask else b &&& 0x7F#8

/-- The segment byte of digit position 1, with the colon bit OR'd in when the marker is `':'` (R145). -/
def withMarker (marker : Byte) (b : Byte) : Byte := if marker = charColon then b ||| colonMask else b

/-- The segment buffer of `DIGITS` (R145). -/
def renderText (f : FontTable) (t0 t1 t2 t3 t4 : Byte) : SegBuf :=
  ⟨encodeChar f t0, withMarker t2 (encodeChar f t1), encodeChar f t3, encodeChar f t4⟩

/-- The loop of R148 over digit positions, last position first. -/
def renderLoop (f : FontTable) : List (Fin 4) → Nat → SegBuf → SegBuf
  | [], _, b => b
  | i :: is, v, b =>
    renderLoop f is (v / 10) (b.set i (encodeChar f (charZero + BitVec.ofNat 8 (v % 10))))

/-- The segment buffer of `INT` (R148, R149): positions 3, 2, 1, 0; what is left of `value` is dropped. -/
def renderInt (f : FontTable) (value : BitVec 16) (b : SegBuf) : SegBuf :=
  renderLoop f [3, 2, 1, 0] value.toNat b

/-- The bytes of a show frame in `single` mode (R58, R144). -/
def showBytes (b : SegBuf) : List Byte := cmdDataByte :: cmdAddrByte :: b.toList

/-- Start sending the segment buffer (R144): one frame, or the first of three. -/
def startShow (s : State) : State :=
  match s.params.frameMode with
  | .single => startFrame (showBytes s.seg) .nothing s
  | .legacy3 => startFrame [cmdDataByte] .addrFrame s

end Sys2Proof.Machine
end

