-- ==== Sys2Proof/Machine/Lookup.lean ====
section
/-! DEFINITION. Machine/Lookup.lean: `ENCODE` as an instruction (R100). It writes no register and emits
nothing; the byte it returns appears on the model's own field `lookupOut` [DESIGN CHOICE, log 6]. -/

namespace Sys2Proof.Machine

/-- `ENCODE(c)` (R100 to R102). -/
def execEncode (c : Byte) (s : State) : Result :=
  withFont s fun f => .next { s with lookupOut := encodeChar f c }

end Sys2Proof.Machine
end

