-- ==== Sys2Proof/Machine/Flags.lean ====
section
/-! DEFINITION. Machine/Flags.lean: the host-visible codes and the acknowledgement (R27, R28, R113). The
block has no arithmetic flags and no condition codes (R37). -/

namespace Sys2Proof.Machine

/-- The 2-bit code of `status` (R27, R171). -/
def Status.code : Status → BitVec 2
  | .ok => 0b00#2
  | .misuse => 0b01#2
  | .illegal => 0b10#2
  | .ackFail => 0b11#2

/-- The result of `WACK`: always 1, "a fixed success stub" (R113, R176). -/
def ackResult : Bool := true

/-- `ackAcc & a` (R28, R114). -/
def foldAck (acc a : Bool) : Bool := acc && a

end Sys2Proof.Machine
end

