-- ==== Sys2Proof/Machine/Phases.lean ====
section
/-! DEFINITION. Machine/Phases.lean: the sequencer, one event per step (R33, R121 to R125). -/

namespace Sys2Proof.Machine

/-- `lifecycle <- 1` (R21, R125). -/
def setInitialized (s : State) : State := { s with lifecycle := .initialized }

/-- `PINIT` steps (R125, R141). -/
def execPinit (s : State) : Result :=
  inPhase .pinit s <|
    match s.step.toNat with
    | 0 => .next (goTo .pinit 1 (emit (.cfg s.clockPin) s))
    | 1 => .next (goTo .pinit 2 (emit (.cfg s.dataPin) s))
    | 2 => .next (goTo .pinit 3 (emit (clockWrite false s) s))
    | 3 => .next (finish (setInitialized (emit (dataWrite false s) s)))
    | _ => .fault .position

/-- After the last event of `WSTART` (R121, step 3): to the stop for an empty frame, else to the first byte. -/
def afterStart (s : State) : Result :=
  if s.txLen = 0 then .next (goTo .pstop 0 s) else loadShift 0 s

/-- `PSTART` steps (R110, R121). -/
def execWstart (s : State) : Result :=
  inPhase .pstart s <|
    match s.step.toNat with
    | 0 => .next (goTo .pstart 1 (emit (dataWrite true s) s))
    | 1 => .next (goTo .pstart 2 (emit (clockWrite true s) s))
    | 2 => .next (goTo .pstart 3 (emit (sleepEvent s) s))
    | 3 => afterStart (emit (dataWrite false s) s)
    | _ => .fault .position

/-- The end of one bit (R32, R122, step 4): `shreg <- shreg >> 1`, `bitCnt <- bitCnt + 1`; after the
eighth bit to the acknowledgement, else to the next bit. -/
def afterBit (s : State) : State :=
  goTo (if s.bitCnt + 1 = 8#4 then .pack else .pshift) 0
    { s with shreg := s.shreg >>> 1, bitCnt := s.bitCnt + 1 }

/-- `PSHIFT` steps (R112, R122); the bit sent is `shreg[0]` (R32). -/
def execWshift (s : State) : Result :=
  inPhase .pshift s <|
    match s.step.toNat with
    | 0 => .next (goTo .pshift 1 (emit (clockWrite false s) s))
    | 1 => .next (goTo .pshift 2 (emit (dataWrite (s.shreg.getLsbD 0) s) s))
    | 2 => .next (goTo .pshift 3 (emit (sleepEvent s) s))
    | 3 => .next (goTo .pshift 4 (emit (clockWrite true s) s))
    | 4 => .next (afterBit (emit (sleepEvent s) s))
    | _ => .fault .position

/-- `ackAcc <- ackAcc & 1`, `txIdx <- txIdx + 1` (R123, step 4). -/
def countAck (s : State) : State :=
  { s with ackAcc := foldAck s.ackAcc ackResult, txIdx := s.txIdx + 1 }

/-- After the last event of `WACK` (R123, step 4): to the stop when `txIdx = txLen`, else to the next byte. -/
def afterAck (s : State) : Result :=
  if s.txIdx = s.txLen then .next (goTo .pstop 0 s) else loadShift s.txIdx.toNat s

/-- `PACK` steps (R113, R123). -/
def execWack (s : State) : Result :=
  inPhase .pack s <|
    match s.step.toNat with
    | 0 => .next (goTo .pack 1 (emit (clockWrite false s) s))
    | 1 => .next (goTo .pack 2 (emit (sleepEvent s) s))
    | 2 => .next (goTo .pack 3 (emit (clockWrite true s) s))
    | 3 => .next (goTo .pack 4 (emit (sleepEvent s) s))
    | 4 => afterAck (countAck (emit (clockWrite false s) s))
    | _ => .fault .position

/-- When a frame is over (R124, step 6): the request's further frame (R144, `legacy3`), or its end. -/
def frameOver (s : State) : State :=
  match s.further with
  | .nothing => finish s
  | .addrFrame => startFrame [cmdAddrByte] .segFrame s
  | .segFrame => startFrame s.seg.toList .nothing s

/-- `PSTOP` steps (R111, R124). -/
def execWstop (s : State) : Result :=
  inPhase .pstop s <|
    match s.step.toNat with
    | 0 => .next (goTo .pstop 1 (emit (clockWrite false s) s))
    | 1 => .next (goTo .pstop 2 (emit (sleepEvent s) s))
    | 2 => .next (goTo .pstop 3 (emit (dataWrite false s) s))
    | 3 => .next (goTo .pstop 4 (emit (sleepEvent s) s))
    | 4 => .next (goTo .pstop 5 (emit (clockWrite true s) s))
    | 5 => .next (goTo .pstop 6 (emit (sleepEvent s) s))
    | 6 => .next (frameOver (emit (dataWrite true s) s))
    | _ => .fault .position

end Sys2Proof.Machine
end

