-- ==== Sys2Proof/Machine/Requests.lean ====
section
/-! DEFINITION. Machine/Requests.lean: acceptance of the request words (R120, R139 to R151, R178). A
request that passes its checks writes its handle registers and the first frame at acceptance and
leaves the sequencer to send it (R120 to R125); a request that fails a check ends at once with only
`status` written (R179). -/

namespace Sys2Proof.Machine

/-- `clockPin <- cp; dataPin <- dp; fontSel <- fs`, `busy <- 1`, to (`PINIT`, 0) (R120, R125, R140). -/
def startPinSetup (cp dp : PinId) (fs : Byte) (s : State) : State :=
  { s with clockPin := cp, dataPin := dp, fontSel := fs, busy := true, phase := .pinit, step := 0 }

/-- The operand check of `INIT`: `fontSel < NFONTS` (R140, R174, R178). -/
def whenFontExists (fs : Byte) (s : State) (body : Result) : Result :=
  if fs.toNat < s.params.nFonts then body else raiseIllegal s

/-- `INIT clockPin, dataPin, fontSel` (R140). -/
def execInit (cp dp : PinId) (fs : Byte) (s : State) : Result :=
  whenIdle s <|
    match s.lifecycle with
    | .initialized => raiseMisuse s
    | .uninitialized => whenFontExists fs s (.next (startPinSetup cp dp fs s))

/-- `BRIGHT level` (R142). -/
def execBright (level : Byte) (s : State) : Result :=
  whenIdle s <| whenInitialized s <|
    .next (startFrame [ctrlByte (clampLevel level)] .nothing s)

/-- `DIGITS text` (R145). -/
def execDigits (t0 t1 t2 t3 t4 : Byte) (s : State) : Result :=
  whenIdle s <| whenInitialized s <| withFont s fun f =>
    .next (startShow { s with seg := renderText f t0 t1 t2 t3 t4 })

/-- `INT value` (R148, R149). -/
def execInt (value : BitVec 16) (s : State) : Result :=
  whenIdle s <| whenInitialized s <| withFont s fun f =>
    .next (startShow { s with seg := renderInt f value s.seg })

/-- `COLON enabled` (R151). -/
def execColon (enabled : BitVec 1) (s : State) : Result :=
  whenIdle s <| whenInitialized s <|
    .next (startShow { s with seg := { s.seg with d1 := forceColon enabled s.seg.d1 } })

/-- A reserved opcode: `raise Illegal` in either lifecycle state (R84, R174, R178). -/
def rejectOpcode (s : State) : Result := whenIdle s (raiseIllegal s)

/-- Reserved opcode 0b101 (R84). -/
def execReserved5 (s : State) : Result := rejectOpcode s

/-- Reserved opcode 0b110 (R84). -/
def execReserved6 (s : State) : Result := rejectOpcode s

/-- Reserved opcode 0b111 (R84). -/
def execReserved7 (s : State) : Result := rejectOpcode s

end Sys2Proof.Machine
end

