-- ==== Sys2Proof/Machine/Wire.lean ====
section
/-! DEFINITION. Machine/Wire.lean: the wire command bytes (R80 to R82) as instructions. The block sends
them inside its frames; called by itself, a command byte is sent as the frame `WFRAME([b])`, "the
only entry point the Display Controller uses to put bytes on the wire" (R114) [DESIGN CHOICE, log 5]. -/

namespace Sys2Proof.Machine

/-- Send one command byte as a frame of its own, under the checks of a content or brightness
operation (R114, R120, R172). -/
def sendCommand (b : Byte) (s : State) : Result :=
  whenIdle s <| whenInitialized s <| .next (startFrame [b] .nothing s)

/-- `CMD_DATA` (R80). -/
def execCmdData (s : State) : Result := sendCommand cmdDataByte s

/-- `CMD_ADDR` (R81). -/
def execCmdAddr (s : State) : Result := sendCommand cmdAddrByte s

/-- `CMD_CTRL`, display off (R82). -/
def execCmdCtrlOff (s : State) : Result := sendCommand cmdCtrlOffByte s

/-- `CMD_CTRL`, display on (R82). -/
def execCmdCtrlOn (kMinus1 : BitVec 3) (s : State) : Result :=
  sendCommand (cmdCtrlOnByte (kMinus1.setWidth 8)) s

end Sys2Proof.Machine
end

