-- ==== Sys2Proof/Machine/Dispatch.lean ====
section
/-! DEFINITION. Machine/Dispatch.lean: one arm per row of the opcode table. -/

namespace Sys2Proof.Machine

def exec (i : Instr) (s : State) : Host.Outcome State Fault Refusal :=
  match i with
  | .init cp dp fs => Sys2Proof.Machine.execInit cp dp fs s
  | .bright level => Sys2Proof.Machine.execBright level s
  | .digits t0 t1 t2 t3 t4 => Sys2Proof.Machine.execDigits t0 t1 t2 t3 t4 s
  | .int value => Sys2Proof.Machine.execInt value s
  | .colon enabled => Sys2Proof.Machine.execColon enabled s
  | .reserved5 => Sys2Proof.Machine.execReserved5 s
  | .reserved6 => Sys2Proof.Machine.execReserved6 s
  | .reserved7 => Sys2Proof.Machine.execReserved7 s
  | .cmdData => Sys2Proof.Machine.execCmdData s
  | .cmdAddr => Sys2Proof.Machine.execCmdAddr s
  | .cmdCtrlOff => Sys2Proof.Machine.execCmdCtrlOff s
  | .cmdCtrlOn k => Sys2Proof.Machine.execCmdCtrlOn k s
  | .pinit => Sys2Proof.Machine.execPinit s
  | .wstart => Sys2Proof.Machine.execWstart s
  | .wshift => Sys2Proof.Machine.execWshift s
  | .wack => Sys2Proof.Machine.execWack s
  | .wstop => Sys2Proof.Machine.execWstop s
  | .encode c => Sys2Proof.Machine.execEncode c s

end Sys2Proof.Machine
end

