-- ==== Sys2Proof/Decode.lean ====
section
/-! DEFINITION. Decode.lean: the decoder of the four encoding spaces of 30_encoding.md and
10_state.md R34, total and rejecting by name; the encoder; and the host's numbering of table words. -/

namespace Sys2Proof

/-- Why a word is no row of the opcode table. -/
inductive DecodeError where
  /-- a wire byte the table has no row for (R82: "The block never emits 0x81 to 0x87") -/
  | notACommand (b : Byte)
  /-- a phase code without a procedure: `IDLE`, or the two never taken (R34) -/
  | notAProcedure (p : BitVec 3)
  deriving DecidableEq, Repr

/-- The decoder's answer. -/
inductive Decoded where
  | instr (i : Instr)
  | rejected (e : DecodeError)
  deriving DecidableEq, Repr

/-- `req_word[42:40]` (R73). -/
def reqOpcode (w : ReqWord) : BitVec 3 := w.extractLsb' 40 3

/-- `opnd[8*i + 7 : 8*i]`, byte `i` of the operand field (R74 to R76). -/
def reqByte (i : Nat) (w : ReqWord) : Byte := w.extractLsb' (8 * i) 8

/-- R73 to R78, R84; operands are plain unsigned fields (R79), the other bits are ignored (R85). -/
def decodeReq (w : ReqWord) : Instr :=
  match (reqOpcode w).toNat with
  | 0 => .init (reqByte 0 w) (reqByte 1 w) (reqByte 2 w)
  | 1 => .bright (reqByte 0 w)
  | 2 => .digits (reqByte 0 w) (reqByte 1 w) (reqByte 2 w) (reqByte 3 w) (reqByte 4 w)
  | 3 => .int (w.extractLsb' 0 16)
  | 4 => .colon (w.extractLsb' 0 1)
  | 5 => .reserved5
  | 6 => .reserved6
  | _ => .reserved7

/-- R80 to R82. -/
def decodeWire (b : Byte) : Decoded :=
  if b = 0x40#8 then .instr .cmdData
  else if b = 0xC0#8 then .instr .cmdAddr
  else if b = 0x80#8 then .instr .cmdCtrlOff
  else if b.extractLsb' 3 5 = 0b10001#5 then .instr (.cmdCtrlOn (b.extractLsb' 0 3))
  else .rejected (.notACommand b)

/-- The phase codes of R34 that have a procedure. -/
def decodePhase (p : BitVec 3) : Decoded :=
  match p.toNat with
  | 1 => .instr .pinit
  | 2 => .instr .wstart
  | 3 => .instr .wshift
  | 4 => .instr .wack
  | 5 => .instr .wstop
  | _ => .rejected (.notAProcedure p)

/-- The decoder, total on every word of every space. -/
def decode : RawWord → Decoded
  | .req w => .instr (decodeReq w)
  | .wire b => decodeWire b
  | .phase p => decodePhase p
  | .lookup c => .instr (.encode c)

/-- A request word from its opcode and its operand field: `{op, opnd}` (R73). -/
def reqWord (op : BitVec 3) (opnd : BitVec 40) : RawWord := .req (op ++ opnd)

/-- The word of an instruction, ignored operand bits zero (R73 to R78, R80 to R82, R34, R91). -/
def encode : Instr → RawWord
  | .init cp dp fs => reqWord 0 (0#16 ++ fs ++ dp ++ cp)
  | .bright level => reqWord 1 (0#32 ++ level)
  | .digits t0 t1 t2 t3 t4 => reqWord 2 (t4 ++ t3 ++ t2 ++ t1 ++ t0)
  | .int value => reqWord 3 (0#24 ++ value)
  | .colon enabled => reqWord 4 (0#39 ++ enabled)
  | .reserved5 => reqWord 5 0#40
  | .reserved6 => reqWord 6 0#40
  | .reserved7 => reqWord 7 0#40
  | .cmdData => .wire 0x40#8
  | .cmdAddr => .wire 0xC0#8
  | .cmdCtrlOff => .wire 0x80#8
  | .cmdCtrlOn k => .wire (0b10001#5 ++ k)
  | .pinit => .phase 0b001#3
  | .wstart => .phase 0b010#3
  | .wshift => .phase 0b011#3
  | .wack => .phase 0b100#3
  | .wstop => .phase 0b101#3
  | .encode c => .lookup c

/-- Which space a table word of at most 8 bits lies in, for the HOST's numbering only: there the rows
of the formats WIRE, PHASE and LOOKUP share one 8-bit numbering, and `ENCODE` matches every byte. A
command byte is read as the command, 1 to 5 as the phase code, every other byte as `ENCODE`'s
character [DESIGN CHOICE, log 8]. The block itself never chooses a space by a word's bits. -/
def smallTableWord (b : Byte) : RawWord :=
  if (RawWord.wire b).wellFormed then .wire b
  else if 1 ≤ b.toNat ∧ b.toNat ≤ 5 then .phase (b.extractLsb' 0 3)
  else .lookup b

/-- The word of a table row of `nbits` bits (whole bytes): 43-bit rows are request words, 8-bit and
3-bit rows the three small spaces. A number too large for its space is no word. -/
def tableWord (nbits w : Nat) : Option RawWord :=
  if nbits ≤ 3 then (if w < 2 ^ 3 then some (.phase (BitVec.ofNat 3 w)) else none)
  else if nbits ≤ 8 then (if w < 2 ^ 8 then some (smallTableWord (BitVec.ofNat 8 w)) else none)
  else if w < 2 ^ 43 then some (.req (BitVec.ofNat 43 w)) else none

/-- The instruction of a decoder's answer. -/
def Decoded.toOption : Decoded → Option Instr
  | .instr i => some i
  | .rejected _ => none

/-- The instruction the decoder reads from a word numbered as spec/opcode_table.json numbers it. -/
def decodeTableWord (nbits w : Nat) : Option Instr :=
  (tableWord nbits w).bind fun r => (decode r).toOption

end Sys2Proof
end

