-- ==== Sys2Proof/Machine/Fetch.lean ====
section
/-! DEFINITION. Machine/Fetch.lean: which word the next step runs. While `busy` it is the phase code of
the sequencer position (R33, R126); while idle, the request the host presents (R72), or a directly
called row (log 5). -/

namespace Sys2Proof.Machine

/-- The raw word of a directly called row. -/
def DirectWord.raw : DirectWord → RawWord
  | .wire b => .wire b
  | .lookup c => .lookup c

/-- The word the next step runs and the state with that word taken from where it stood; none when the
block is idle and nothing is presented (R200: "waits for a request"). A request is taken from the
port only while `busy = 0` (R72). -/
def fetch (s : State) : Option (RawWord × State) :=
  if s.busy then some (.phase s.phase.code, s)
  else
    match s.direct with
    | some d => some (d.raw, { s with direct := none })
    | none =>
      match s.hostReqs with
      | [] => none
      | w :: rest => some (.req w, { s with hostReqs := rest })

/-- What a step answers for a word the decoder rejects. -/
def stopOn : DecodeError → Result
  | .notACommand b => .refused (.notACommand b)
  | .notAProcedure _ => .fault .position

/-- The phase code's phase, `IDLE` for the two codes never taken. -/
def phaseToPlace (p : BitVec 3) : Phase := (Phase.ofCode p).getD .idle

/-- Place a word where the next step fetches it (log 2, log 8): on the request port, in the `phase`
register, or as a direct call. -/
def placeWord (r : RawWord) (s : State) : State :=
  match r with
  | .req w =>
    { s with resetIn := false, busy := false, direct := none, hostReqs := w :: s.hostReqs.tail }
  | .wire b => { s with resetIn := false, busy := false, direct := some (.wire b) }
  | .lookup c => { s with resetIn := false, busy := false, direct := some (.lookup c) }
  | .phase p => { s with resetIn := false, busy := true, phase := phaseToPlace p, step := 0 }

end Sys2Proof.Machine
end

