-- ==== Sys2Proof/Machine/Step.lean ====
section
/-! DEFINITION. Machine/Step.lean: one step of the machine: the reset the host asserts (R190, R202), or
the word at the next position, or waiting for a request (R200). -/

namespace Sys2Proof.Machine

/-- One step. -/
def step (s : State) : Host.Outcome State Fault Refusal :=
  if s.resetIn then .next (assertReset s)
  else
    match fetch s with
    | none => .next s
    | some (r, s') =>
      match decode r with
      | .instr i => exec i s'
      | .rejected e => stopOn e

/-- `s` with the table word `w` placed where `step` takes its next instruction from (log 2, log 8). -/
def State.withFetchWord (s : State) (nbits w : Nat) : State :=
  match tableWord nbits w with
  | some r => placeWord r s
  | none => s

end Sys2Proof.Machine
end

