-- ==== Sys2Proof/Machine/LineView.lean ====
section
/-! DEFINITION. Machine/LineView.lean: the line view, a function of the trace (R40, R41, R117). It is
defined for one writer of the lines only (93_implementation_defined.md U5). -/

namespace Sys2Proof.Machine

/-- `PinDir(p)` (R40). -/
inductive PinDir where
  | unconfigured
  | output
  deriving DecidableEq, Repr

/-- `PinDir(p)` after the events of `T`: `output` once `T` contains `Cfg(p)` (R40). -/
def pinDir (T : List Event) (p : PinId) : PinDir :=
  if .cfg p ∈ T then .output else .unconfigured

/-- What one event does to the level of pin `p` (R40): only `W(p, l)` changes it. -/
def levelAfter (p : PinId) (l : Option Bool) : Event → Option Bool
  | .cfg _ => l
  | .w q v => if q = p then some v else l
  | .s _ => l

/-- `PinLevel(p)` after the events of `T`, none for `unknown` (R40). -/
def pinLevel (T : List Event) (p : PinId) : Option Bool := T.foldl (levelAfter p) none

/-- Every pin write of the trace follows a configuration of its pin (R40), given what was emitted
before. -/
def configuredFrom (before : List Event) : List Event → Prop
  | [] => True
  | .w p l :: es => .cfg p ∈ before ∧ configuredFrom (before ++ [.w p l]) es
  | .cfg p :: es => configuredFrom (before ++ [.cfg p]) es
  | .s d :: es => configuredFrom (before ++ [.s d]) es

/-- The levels of the two lines (R117). -/
structure Lines where
  clock : Bool
  data  : Bool
  deriving DecidableEq, Repr

/-- The levels after one event, with clock pin `c` and data pin `d` (R40). -/
def linesAfter (c d : PinId) (l : Lines) : Event → Lines
  | .cfg _ => l
  | .w p v => ⟨if p = c then v else l.clock, if p = d then v else l.data⟩
  | .s _ => l

/-- The levels after a list of events. -/
def linesEnd (c d : PinId) : Lines → List Event → Lines
  | l, [] => l
  | l, e :: es => linesEnd c d (linesAfter c d l e) es

/-- The number of clock rising edges over a list of events (R117). -/
def clockRises (c d : PinId) : Lines → List Event → Nat
  | _, [] => 0
  | l, e :: es =>
    (if l.clock = false ∧ (linesAfter c d l e).clock = true then 1 else 0) +
      clockRises c d (linesAfter c d l e) es

/-- The changes of the data line while the clock is high, each as the new data level (R117 (a)). A
change counts when the clock is high before and after the event. -/
def dataChangesWhileHigh (c d : PinId) : Lines → List Event → List Bool
  | _, [] => []
  | l, e :: es =>
    (if l.clock = true ∧ (linesAfter c d l e).clock = true ∧ (linesAfter c d l e).data ≠ l.data
      then [(linesAfter c d l e).data] else []) ++
      dataChangesWhileHigh c d (linesAfter c d l e) es

end Sys2Proof.Machine
end

