-- ==== Sys2Proof/Machine/Procedures.lean ====
section
/-! DEFINITION. Machine/Procedures.lean: the wire procedures as event lists (R110 to R115, R141, R144),
the form of 41_wire_transport.md section 1. `c` is the clock pin, `d` the data pin, `t` is
`CLOCK_DELAY`. The sequencer of Machine/Phases.lean is the same behaviour one event at a time (R126). -/

namespace Sys2Proof.Machine

/-- The pin set-up of `INIT` (R141). -/
def pinSetupEvents (c d : PinId) : List Event := [.cfg c, .cfg d, .w c false, .w d false]

/-- `WSTART()` (R110). -/
def wstartEvents (c d : PinId) (t : Nat) : List Event := [.w d true, .w c true, .s t, .w d false]

/-- `WSTOP()` (R111). -/
def wstopEvents (c d : PinId) (t : Nat) : List Event :=
  [.w c false, .s t, .w d false, .s t, .w c true, .s t, .w d true]

/-- The five events of one data bit (R112). -/
def bitEvents (c d : PinId) (t : Nat) (x : Bool) : List Event :=
  [.w c false, .w d x, .s t, .w c true, .s t]

/-- The loop of `WSHIFT` for `n` bits of the shift register (R112). -/
def shiftLoop (c d : PinId) (t : Nat) : Nat → Byte → List Event
  | 0, _ => []
  | n + 1, r => bitEvents c d t (r.getLsbD 0) ++ shiftLoop c d t n (r >>> 1)

/-- `WSHIFT(b)` (R112). -/
def wshiftEvents (c d : PinId) (t : Nat) (b : Byte) : List Event := shiftLoop c d t 8 b

/-- The events of `WACK()` (R113); it writes the clock line only. -/
def wackEvents (c : PinId) (t : Nat) : List Event := [.w c false, .s t, .w c true, .s t, .w c false]

/-- One byte of a frame: `WSHIFT` then `WACK` (R114). -/
def byteEvents (c d : PinId) (t : Nat) (b : Byte) : List Event := wshiftEvents c d t b ++ wackEvents c t

/-- `WFRAME(bytes)` (R114), for a list of any length. -/
def wframeEvents (c d : PinId) (t : Nat) (bytes : List Byte) : List Event :=
  wstartEvents c d t ++ bytes.flatMap (byteEvents c d t) ++ wstopEvents c d t

/-- `SHOWFRAME()` for the segment buffer `b` (R144). -/
def showFrameEvents (m : FrameMode) (c d : PinId) (t : Nat) (b : SegBuf) : List Event :=
  match m with
  | .single => wframeEvents c d t (showBytes b)
  | .legacy3 =>
    wframeEvents c d t [cmdDataByte] ++ wframeEvents c d t [cmdAddrByte] ++ wframeEvents c d t b.toList

/-- Whether an event is a pin write (R115). -/
def Event.isWrite : Event → Bool
  | .cfg _ => false
  | .w _ _ => true
  | .s _ => false

/-- Whether an event is a sleep (R115). -/
def Event.isSleep : Event → Bool
  | .cfg _ => false
  | .w _ _ => false
  | .s _ => true

/-- The least duration of an event list in microseconds: the sum of its sleeps (R12, R221). -/
def minDuration : List Event → Nat
  | [] => 0
  | .s d :: es => d + minDuration es
  | .cfg _ :: es => minDuration es
  | .w _ _ :: es => minDuration es

end Sys2Proof.Machine
end

