-- ==== Sys2Proof/Machine/Whole.lean ====
section
/-! DEFINITION. Machine/Whole.lean: a request as ONE state transformer (R13, R139 to R151, R178), the
coarse form a reader finds in 42_display_controller.md. `step` does not use it: the sequencer emits
one event a step, and the two forms are claimed to agree (R126). -/

namespace Sys2Proof.Machine

/-- The whole of one `WFRAME` (R114): its events at once, and the sequencer registers it leaves (R32,
R126); back in (`IDLE`, 0). -/
def sendFrame (bytes : List Byte) (s : State) : State :=
  { s with
    txBuf := s.txBuf.loadAt 0 bytes
    txLen := BitVec.ofNat 3 bytes.length
    txIdx := BitVec.ofNat 3 bytes.length
    ackAcc := true
    shreg := if bytes = [] then s.shreg else 0
    bitCnt := if bytes = [] then s.bitCnt else 8
    trace := s.trace ++ wframeEvents s.clockPin s.dataPin s.params.clockDelay bytes }

/-- `SHOWFRAME()` (R144). -/
def sendShow (s : State) : State :=
  match s.params.frameMode with
  | .single => sendFrame (showBytes s.seg) s
  | .legacy3 => sendFrame s.seg.toList (sendFrame [cmdAddrByte] (sendFrame [cmdDataByte] s))

/-- `status <- OK` at the end of a request whose checks all passed (R139). -/
def completed (s : State) : State := { s with status := .ok }

/-- The body of `INIT` (R140). -/
def wholeInit (cp dp : PinId) (fs : Byte) (s : State) : State :=
  completed { s with
    clockPin := cp, dataPin := dp, fontSel := fs, lifecycle := .initialized,
    trace := s.trace ++ pinSetupEvents cp dp }

/-- The body of a request that needs the selected font; `s` itself where it does not exist (R24 rules
that out). -/
def wholeShow (render : FontTable → SegBuf) (s : State) : State :=
  match selectedFont s with
  | none => s
  | some f => completed (sendShow { s with seg := render f })

/-- An error's whole effect (R179). -/
def failed (code : Status) (s : State) : State := { s with status := code }

/-- A content or brightness request: the lifecycle check, then its body (R139, R172, R178). -/
def checkedBody (s : State) (body : State) : State :=
  match s.lifecycle with
  | .uninitialized => failed .misuse s
  | .initialized => body

/-- `INIT` with its two checks in order (R140, R178). -/
def checkedInit (cp dp : PinId) (fs : Byte) (s : State) : State :=
  match s.lifecycle with
  | .initialized => failed .misuse s
  | .uninitialized => if fs.toNat < s.params.nFonts then wholeInit cp dp fs s else failed .illegal s

/-- The checks of R178 and the bodies of R140, R142, R145, R148, R151 on an idle block; a table row
that is no request leaves the state unchanged here. -/
def wholeRequest (i : Instr) (s : State) : State :=
  match i with
  | .init cp dp fs => checkedInit cp dp fs s
  | .bright level => checkedBody s (completed (sendFrame [ctrlByte (clampLevel level)] s))
  | .digits t0 t1 t2 t3 t4 => checkedBody s (wholeShow (fun f => renderText f t0 t1 t2 t3 t4) s)
  | .int value => checkedBody s (wholeShow (fun f => renderInt f value s.seg) s)
  | .colon enabled =>
    checkedBody s (completed (sendShow { s with seg := { s.seg with d1 := forceColon enabled s.seg.d1 } }))
  | .reserved5 => failed .illegal s
  | .reserved6 => failed .illegal s
  | .reserved7 => failed .illegal s
  | .cmdData => s
  | .cmdAddr => s
  | .cmdCtrlOff => s
  | .cmdCtrlOn _ => s
  | .pinit => s
  | .wstart => s
  | .wshift => s
  | .wack => s
  | .wstop => s
  | .encode _ => s

/-- The requests of a run one after the other (R64, R206), each carried out whole. -/
def wholeRun (requests : List Instr) (s : State) : State := requests.foldl (fun t i => wholeRequest i t) s

end Sys2Proof.Machine
end

