-- ==== Sys2Proof/Safety.lean ====
section
/-! DEFINITION. Safety.lean: the invariant of the block (10_state.md R21 to R34, R40), and the number of
events the request in flight still emits (R126, R206). -/

namespace Sys2Proof.Machine

/-- The pins in use have been configured (R40, R141). -/
def PinsConfigured (s : State) : Prop := .cfg s.clockPin ∈ s.trace ∧ .cfg s.dataPin ∈ s.trace

/-- The transmit registers hold a frame in flight of at most `TXBUF_LEN` bytes (R30). -/
def FrameInFlight (s : State) : Prop := s.lifecycle = .initialized ∧ s.txLen.toNat ≤ txBufLen

/-- The sequencer positions the rules give while `busy = 1`, with what the sequencer registers hold
there (R31 to R34, R121 to R125). -/
def PositionInv (s : State) : Prop :=
  match s.phase with
  | .idle => False
  | .pinit =>
    s.lifecycle = .uninitialized ∧ s.step.toNat < 4 ∧ s.further = .nothing ∧
      (1 ≤ s.step.toNat → .cfg s.clockPin ∈ s.trace) ∧ (2 ≤ s.step.toNat → .cfg s.dataPin ∈ s.trace)
  | .pstart => FrameInFlight s ∧ s.step.toNat < 4 ∧ s.txIdx = 0
  | .pshift =>
    FrameInFlight s ∧ s.step.toNat < 5 ∧ s.txIdx.toNat < s.txLen.toNat ∧ s.bitCnt.toNat < 8 ∧
      (s.txBuf.get? s.txIdx.toNat).map (fun b : Byte => b >>> s.bitCnt.toNat) = some s.shreg
  | .pack =>
    FrameInFlight s ∧ s.step.toNat < 5 ∧ s.txIdx.toNat < s.txLen.toNat ∧ s.bitCnt = 8 ∧ s.shreg = 0
  | .pstop => FrameInFlight s ∧ s.step.toNat < 7 ∧ s.txIdx = s.txLen

/-- The invariant: what the rules say holds at all times. -/
structure State.Inv (s : State) : Prop where
  /-- R24: "fontSel < NFONTS at all times" -/
  font : s.fontSel.toNat < s.params.nFonts
  /-- R28: "ackAcc = 1 at all times" -/
  ack : s.ackAcc = true
  /-- R27, R176: code 3 is "never produced" -/
  status : s.status ≠ .ackFail
  /-- R33: "While busy = 0 the position is (IDLE, 0)" -/
  idle : s.busy = false → s.phase = .idle ∧ s.step = 0 ∧ s.further = .nothing
  /-- R33, R126 -/
  position : s.busy = true → PositionInv s
  /-- R124, R144: a further frame only with `legacy3` -/
  legacy : s.further ≠ .nothing → s.params.frameMode = .legacy3
  /-- R40, R141 -/
  pins : s.lifecycle = .initialized → PinsConfigured s
  /-- R40: "every W the block emits on a pin follows a Cfg of that pin" -/
  configured : configuredFrom [] s.trace

/-- No directly called byte that is no command waits to be run: the premise of the claims that no step
stops (log 5). -/
def NoBadDirect (s : State) : Prop := ∀ b, s.direct = some (.wire b) → (RawWord.wire b).wellFormed = true

/-- Events of the frames of a request after the frame in flight (R115, R144). -/
def furtherEvents : Further → Nat
  | .nothing => 0
  | .addrFrame => 56 + 191
  | .segFrame => 191

/-- Events the request in flight still emits, from the sequencer position (R115, R121 to R125). -/
def eventsLeft (s : State) : Nat :=
  match s.phase with
  | .idle => 0
  | .pinit => 4 - s.step.toNat
  | .pstart => 4 - s.step.toNat + 45 * s.txLen.toNat + 7 + furtherEvents s.further
  | .pshift =>
    5 - s.step.toNat + 5 * (7 - s.bitCnt.toNat) + 5 + 45 * (s.txLen.toNat - s.txIdx.toNat - 1) + 7 +
      furtherEvents s.further
  | .pack =>
    5 - s.step.toNat + 45 * (s.txLen.toNat - s.txIdx.toNat - 1) + 7 + furtherEvents s.further
  | .pstop => 7 - s.step.toNat + furtherEvents s.further

/-- The block is idle, no reset is asserted and nothing is called directly: the next step takes what
the host presents on the request port (R72). -/
def PortOpen (s : State) : Prop := s.busy = false ∧ s.resetIn = false ∧ s.direct = none

/-- A step of a frame runs next: the block is busy and no reset is asserted (R126). -/
def Running (s : State) : Prop := s.busy = true ∧ s.resetIn = false

/-- A show request accepted with segment buffer `b` (R120, R144): in `single` mode the six-byte frame is
loaded, in `legacy3` mode the first of the three frames. -/
def showAccepted (b : SegBuf) (s : State) : State :=
  match s.params.frameMode with
  | .single =>
    { s with
      seg := b, txBuf := ⟨0x40#8, 0xC0#8, b.d0, b.d1, b.d2, b.d3⟩, txLen := 6, txIdx := 0,
      busy := true, ackAcc := true, phase := .pstart, step := 0, further := .nothing }
  | .legacy3 =>
    { s with
      seg := b, txBuf := { s.txBuf with e0 := 0x40#8 }, txLen := 1, txIdx := 0,
      busy := true, ackAcc := true, phase := .pstart, step := 0, further := .addrFrame }

/-- A one-byte frame accepted (R120, R142). -/
def byteAccepted (b : Byte) (s : State) : State :=
  { s with
    txBuf := { s.txBuf with e0 := b }, txLen := 1, txIdx := 0,
    busy := true, ackAcc := true, phase := .pstart, step := 0, further := .nothing }

/-- The first error of R178 that applies to a request on an idle block, none when its body runs. -/
def firstError (i : Instr) (s : State) : Option Status :=
  if i = .reserved5 ∨ i = .reserved6 ∨ i = .reserved7 then some .illegal
  else
    match i, s.lifecycle with
    | .init _ _ _, .initialized => some .misuse
    | .init _ _ fs, .uninitialized => if fs.toNat < s.params.nFonts then none else some .illegal
    | _, .initialized => none
    | _, .uninitialized => some .misuse

/-- `n` steps of the machine lead from `s` to `t`, none of them a fault or a refusal (`Host.Core.run`). -/
def Runs : Nat → State → State → Prop
  | 0, s, t => t = s
  | n + 1, s, t => ∃ u, step s = .next u ∧ Runs n u t

end Sys2Proof.Machine
end

