-- ==== Sys2Proof/Certificates/Slice0/Obligations.lean ====
section
/-! DEFINITION. Certificates/Slice0/Obligations.lean: the statements for the provers. In event lists `C`
is `s.clockPin`, `D` is `s.dataPin`, the sleep `S` is `.s s.params.clockDelay`. -/

open Sys2Proof Sys2Proof.Machine

/-! ### Encodings -/

/-- Decode and encode agree, for every instruction at every operand value (R34, R73 to R78, R80 to R82). -/
def Obligations.DecodeOfEncodeIsTheInstruction : Prop :=
  ∀ i : Instr, decode (encode i) = .instr i

/-- Outside the request words (whose ignored bits are free, R85) a word is the encoding of what it
decodes to: no two words of one of these spaces mean the same instruction. -/
def Obligations.SmallSpaceWordsEncodeTheirDecoding : Prop :=
  ∀ (r : RawWord) (i : Instr), decode r = .instr i → r.format ≠ .req → encode i = r

/-- The decoder accepts exactly the words that are a row of the opcode table (R34, R73, R82, R84, R87). -/
def Obligations.DecoderAcceptsExactlyTheTableWords : Prop :=
  ∀ r : RawWord, (∃ i, decode r = .instr i) ↔ r.wellFormed = true

/-- Which opcode is which request and which bits are which operand (R73 to R79), in plain division. -/
def Obligations.RequestFieldsAreReadFromTheirBits : Prop :=
  ∀ w : ReqWord,
    (w.toNat / 2 ^ 40 = 0 →
      decode (.req w) = .instr (.init (BitVec.ofNat 8 w.toNat) (BitVec.ofNat 8 (w.toNat / 2 ^ 8))
        (BitVec.ofNat 8 (w.toNat / 2 ^ 16)))) ∧
    (w.toNat / 2 ^ 40 = 1 → decode (.req w) = .instr (.bright (BitVec.ofNat 8 w.toNat))) ∧
    (w.toNat / 2 ^ 40 = 2 →
      decode (.req w) = .instr (.digits (BitVec.ofNat 8 w.toNat) (BitVec.ofNat 8 (w.toNat / 2 ^ 8))
        (BitVec.ofNat 8 (w.toNat / 2 ^ 16)) (BitVec.ofNat 8 (w.toNat / 2 ^ 24))
        (BitVec.ofNat 8 (w.toNat / 2 ^ 32)))) ∧
    (w.toNat / 2 ^ 40 = 3 → decode (.req w) = .instr (.int (BitVec.ofNat 16 w.toNat))) ∧
    (w.toNat / 2 ^ 40 = 4 → decode (.req w) = .instr (.colon (BitVec.ofNat 1 w.toNat))) ∧
    (w.toNat / 2 ^ 40 = 5 → decode (.req w) = .instr .reserved5) ∧
    (w.toNat / 2 ^ 40 = 6 → decode (.req w) = .instr .reserved6) ∧
    (w.toNat / 2 ^ 40 = 7 → decode (.req w) = .instr .reserved7)

/-- R85: words that differ only in ignored operand bits behave identically when the host presents them. -/
def Obligations.IgnoredOperandBitsHaveNoEffect : Prop :=
  ∀ (s : State) (w w' : ReqWord) (rest : List ReqWord), PortOpen s →
    w &&& meaningfulBits (reqOpcode w) = w' &&& meaningfulBits (reqOpcode w) →
    step { s with hostReqs := w :: rest } = step { s with hostReqs := w' :: rest }

/-- Words written out in the spec's vectors and tables decode to what they stand for (V30, V40, V50,
V64, V66, V17, R34, R80 to R82). -/
def Obligations.SpecWordsDecodeAsWritten : Prop :=
  decode (.req 0x00000000302#43) = .instr (.init 2 3 0) ∧
  decode (.req 0x1FFFFFFFF03#43) = .instr (.bright 3) ∧
  decode (.req 0x234333A3231#43) = .instr (.digits 0x31 0x32 0x3A 0x33 0x34) ∧
  decode (.req 0x30000003039#43) = .instr (.int 12345) ∧
  decode (.req 0x40000000001#43) = .instr (.colon 1) ∧
  decode (.req 0x50000000000#43) = .instr .reserved5 ∧
  decode (.wire 0x40#8) = .instr .cmdData ∧
  decode (.wire 0x8A#8) = .instr (.cmdCtrlOn 2) ∧
  decode (.wire 0x81#8) = .rejected (.notACommand 0x81#8) ∧
  decode (.phase 0b011#3) = .instr .wshift ∧
  decode (.phase 0b110#3) = .rejected (.notAProcedure 0b110#3) ∧
  decode (.lookup 0x37#8) = .instr (.encode 0x37)

/-! ### Reset -/

/-- R43: the reset values, for every parameter value, the line view included. -/
def Obligations.ResetHoldsTheResetValues : Prop :=
  ∀ (p : Params) (q : PinId),
    (State.resetWith p).lifecycle = .uninitialized ∧ (State.resetWith p).clockPin = 0x00 ∧
    (State.resetWith p).dataPin = 0x00 ∧ (State.resetWith p).fontSel = 0 ∧
    (State.resetWith p).seg = ⟨0x00, 0x00, 0x00, 0x00⟩ ∧ (State.resetWith p).status.code = 0 ∧
    (State.resetWith p).ackAcc = true ∧ (State.resetWith p).busy = false ∧
    (State.resetWith p).txBuf = ⟨0x00, 0x00, 0x00, 0x00, 0x00, 0x00⟩ ∧
    (State.resetWith p).txLen = 0 ∧ (State.resetWith p).txIdx = 0 ∧ (State.resetWith p).shreg = 0 ∧
    (State.resetWith p).bitCnt = 0 ∧ (State.resetWith p).phase = .idle ∧
    (State.resetWith p).step = 0 ∧ (State.resetWith p).trace = [] ∧
    pinDir (State.resetWith p).trace q = .unconfigured ∧ pinLevel (State.resetWith p).trace q = none

/-- R200, R202: reset asserted in any state, also while a request is in flight, puts every register at
its reset value, empties the trace and emits nothing. That the parameters and the host's pending
requests stay is the model's choice (log 1, log 4). -/
def Obligations.AssertedResetRestoresEveryRegister : Prop :=
  ∀ s : State, s.resetIn = true →
    step s = .next { State.resetWith s.params with hostReqs := s.hostReqs, direct := s.direct }

/-- "After reset the block waits for a request" (R200): an idle block with nothing presented stays as
it is. The host's inputs are the model's own fields (log 2, log 4, log 5). -/
def Obligations.IdleBlockWaitsForARequest : Prop :=
  ∀ s : State, PortOpen s → s.hostReqs = [] → step s = .next s

/-! ### The step -/

/-- A step runs the instruction that the fetched word decodes to: the phase code while busy (R33, R126); while
idle, a pending direct call, whatever the host presents; only with none pending, the request at the head of
the host's list, taken from the port (R72). The direct call and its precedence over a presented request are
the model's choice (log 5), the host's list is log 2. -/
def Obligations.StepRunsTheDecodedWord : Prop :=
  (∀ (s s' : State) (r : RawWord) (i : Instr), s.resetIn = false → fetch s = some (r, s') →
    decode r = .instr i → step s = exec i s') ∧
  (∀ s : State, s.busy = true → fetch s = some (.phase s.phase.code, s)) ∧
  (∀ (s : State) (w : ReqWord) (rest : List ReqWord), s.busy = false → s.direct = none →
    s.hostReqs = w :: rest → fetch s = some (.req w, { s with hostReqs := rest })) ∧
  (∀ (s : State) (b : Byte), s.busy = false → s.direct = some (.wire b) →
    fetch s = some (.wire b, { s with direct := none })) ∧
  (∀ (s : State) (c : Byte), s.busy = false → s.direct = some (.lookup c) →
    fetch s = some (.lookup c, { s with direct := none }))

/-- While `busy = 1` a presented request is not accepted, not queued and not lost (R72). -/
def Obligations.BusyBlockTakesNoRequest : Prop :=
  (∀ (i : Instr) (s : State), i.format = .req → s.busy = true → exec i s = .next s) ∧
  (∀ s t : State, s.busy = true → s.resetIn = false → step s = .next t → t.hostReqs = s.hostReqs)

/-! ### Requests: acceptance -/

/-- `INIT` accepted on an idle uninitialised block with an existing font (R120, R125, R140). -/
def Obligations.InitAcceptanceStoresPinsAndFont : Prop :=
  ∀ (cp dp : PinId) (fs : Byte) (s : State), s.busy = false → s.lifecycle = .uninitialized →
    fs.toNat < s.params.nFonts →
    exec (.init cp dp fs) s =
      .next { s with clockPin := cp, dataPin := dp, fontSel := fs, busy := true, phase := .pinit, step := 0 }

/-- `BRIGHT` accepted: the one control byte is loaded (R82, R120, R142, R143). -/
def Obligations.BrightAcceptanceLoadsTheControlByte : Prop :=
  ∀ (level : Byte) (s : State), s.busy = false → s.lifecycle = .initialized →
    exec (.bright level) s =
      .next (byteAccepted
        (if level = 0 then 0x80#8 else 0x88#8 ||| BitVec.ofNat 8 (min level.toNat 8 - 1)) s)

/-- `DIGITS` accepted: text characters 0, 1, 3, 4 are looked up, the colon marker at place 2 sets bit 7
of entry 1, all four entries are written, and the frame is loaded (R120, R144, R145). -/
def Obligations.DigitsAcceptanceRendersTheText : Prop :=
  ∀ (t0 t1 t2 t3 t4 : Byte) (s : State) (f : FontTable), s.busy = false → s.lifecycle = .initialized →
    s.params.fonts[s.fontSel.toNat]? = some f →
    exec (.digits t0 t1 t2 t3 t4) s =
      .next (showAccepted ⟨encodeChar f t0, if t2 = 0x3A#8 then encodeChar f t1 ||| 0x80#8 else encodeChar f t1,
        encodeChar f t3, encodeChar f t4⟩ s)

/-- `INT` accepted: the four low decimal digits, thousands in position 0, each looked up as
`0x30 + digit`, whatever the value (R120, R144, R148, R149). -/
def Obligations.IntAcceptanceRendersTheDigits : Prop :=
  ∀ (v : BitVec 16) (s : State) (f : FontTable), s.busy = false → s.lifecycle = .initialized →
    s.params.fonts[s.fontSel.toNat]? = some f →
    exec (.int v) s =
      .next (showAccepted ⟨encodeChar f (BitVec.ofNat 8 (0x30 + v.toNat / 1000 % 10)),
        encodeChar f (BitVec.ofNat 8 (0x30 + v.toNat / 100 % 10)),
        encodeChar f (BitVec.ofNat 8 (0x30 + v.toNat / 10 % 10)),
        encodeChar f (BitVec.ofNat 8 (0x30 + v.toNat % 10))⟩ s)

/-- `COLON` accepted: bit 7 of `seg[1]` takes the operand's value, every other bit of the segment
buffer keeps its value (R120, R144, R151). -/
def Obligations.ColonAcceptanceForcesTheColonBit : Prop :=
  ∀ (e : BitVec 1) (s : State), s.busy = false → s.lifecycle = .initialized →
    ∃ b : SegBuf, exec (.colon e) s = .next (showAccepted b s) ∧
      b.d0 = s.seg.d0 ∧ b.d2 = s.seg.d2 ∧ b.d3 = s.seg.d3 ∧
      b.d1.getLsbD 7 = e.getLsbD 0 ∧ ∀ k < 7, b.d1.getLsbD k = s.seg.d1.getLsbD k

/-- R84: a reserved opcode in either lifecycle state: `status <- ILLEGAL`, nothing else. -/
def Obligations.ReservedOpcodesAreIllegal : Prop :=
  (∀ s : State, s.busy = false →
    exec .reserved5 s = .next { s with status := .illegal } ∧
    exec .reserved6 s = .next { s with status := .illegal } ∧
    exec .reserved7 s = .next { s with status := .illegal }) ∧
  (∀ (s : State) (w : ReqWord) (rest : List ReqWord), PortOpen s → s.hostReqs = w :: rest →
    5 ≤ (reqOpcode w).toNat → step s = .next { s with hostReqs := rest, status := .illegal })

/-- R172: a content or brightness request before `INIT`, and a second `INIT`, are misuse: the whole
effect is `status <- MISUSE`. -/
def Obligations.RequestsInTheWrongLifecycleAreMisuse : Prop :=
  (∀ s : State, s.busy = false → s.lifecycle = .uninitialized →
    (∀ l, exec (.bright l) s = .next { s with status := .misuse }) ∧
    (∀ a b c d e, exec (.digits a b c d e) s = .next { s with status := .misuse }) ∧
    (∀ v, exec (.int v) s = .next { s with status := .misuse }) ∧
    (∀ e, exec (.colon e) s = .next { s with status := .misuse })) ∧
  (∀ (s : State) (cp dp : PinId) (fs : Byte), s.busy = false → s.lifecycle = .initialized →
    exec (.init cp dp fs) s = .next { s with status := .misuse })

/-- R174: a refused `INIT` writes `status` only, and a correct `INIT` can follow. -/
def Obligations.InitWithAMissingFontIsIllegal : Prop :=
  ∀ (cp dp : PinId) (fs : Byte) (s : State), s.busy = false → s.lifecycle = .uninitialized →
    s.params.nFonts ≤ fs.toNat →
    exec (.init cp dp fs) s = .next { s with status := .illegal } ∧
    ∀ (cp' dp' : PinId) (fs' : Byte), fs'.toNat < s.params.nFonts →
      ∃ t, exec (.init cp' dp' fs') { s with status := .illegal } = .next t ∧ t.phase = .pinit ∧ t.busy = true

/-- The order of the checks, and that a request that passes them runs its body (R139, R178). -/
def Obligations.ChecksAreMadeInOrder : Prop :=
  ∀ (i : Instr) (s : State), i.format = .req → s.busy = false → s.fontSel.toNat < s.params.nFonts →
    (∀ c, firstError i s = some c → exec i s = .next { s with status := c }) ∧
    (firstError i s = none → ∃ t, exec i s = .next t ∧ t.busy = true ∧ t.status = s.status ∧
      t.trace = s.trace ∧ (t.phase = .pinit ∨ t.phase = .pstart) ∧ t.step = 0)

/-- Aliasing operands (R86): levels above 8 act as 8; colon markers other than `':'` act alike;
characters outside the font's range act alike at each place. -/
def Obligations.AliasingOperandsActAlike : Prop :=
  (∀ (l : Byte) (s : State), 8 < l.toNat → exec (.bright l) s = exec (.bright 8) s) ∧
  (∀ (t0 t1 t3 t4 m m' : Byte) (s : State), m ≠ 0x3A#8 → m' ≠ 0x3A#8 →
    exec (.digits t0 t1 m t3 t4) s = exec (.digits t0 t1 m' t3 t4) s) ∧
  (∀ (f : FontTable) (a a' t0 t1 m t3 t4 : Byte) (s : State),
    s.params.fonts[s.fontSel.toNat]? = some f →
    ¬ (f.baseChar.toNat ≤ a.toNat ∧ a.toNat < f.baseChar.toNat + f.symbolCount) →
    ¬ (f.baseChar.toNat ≤ a'.toNat ∧ a'.toNat < f.baseChar.toNat + f.symbolCount) →
    exec (.digits a t1 m t3 t4) s = exec (.digits a' t1 m t3 t4) s ∧
    exec (.digits t0 a m t3 t4) s = exec (.digits t0 a' m t3 t4) s ∧
    exec (.digits t0 t1 m a t4) s = exec (.digits t0 t1 m a' t4) s ∧
    exec (.digits t0 t1 m t3 a) s = exec (.digits t0 t1 m t3 a') s)

/-- `INT v` is `DIGITS` of the four zero-padded decimal digits of `v mod 10000`, with any non-colon
character at place 2, and `INT` of `v mod 10000` (R90 (a), R149). -/
def Obligations.IntEqualsDigitsOfItsDecimalText : Prop :=
  ∀ (v : BitVec 16) (m : Byte) (s : State), m ≠ 0x3A#8 →
    exec (.int v) s =
      exec (.digits (BitVec.ofNat 8 (0x30 + v.toNat % 10000 / 1000))
        (BitVec.ofNat 8 (0x30 + v.toNat % 10000 / 100 % 10)) m
        (BitVec.ofNat 8 (0x30 + v.toNat % 10000 / 10 % 10))
        (BitVec.ofNat 8 (0x30 + v.toNat % 10000 % 10))) s ∧
    exec (.int v) s = exec (.int (BitVec.ofNat 16 (v.toNat % 10000))) s

/-- R143: the control byte, by formula and by table. -/
def Obligations.ControlByteTable : Prop :=
  ctrlByte 0 = 0x80#8 ∧ (∀ k, 1 ≤ k → k ≤ 8 → ctrlByte k = 0x88#8 ||| BitVec.ofNat 8 (k - 1)) ∧
  ctrlByte 1 = 0x88#8 ∧ ctrlByte 2 = 0x89#8 ∧ ctrlByte 3 = 0x8A#8 ∧ ctrlByte 4 = 0x8B#8 ∧
  ctrlByte 5 = 0x8C#8 ∧ ctrlByte 6 = 0x8D#8 ∧ ctrlByte 7 = 0x8E#8 ∧ ctrlByte 8 = 0x8F#8

/-! ### The font look-up -/

/-- R106: the look-up in range, below, above, and the table's lines for FONT_DEC. -/
def Obligations.FontLookupMeetsItsProperties : Prop :=
  (∀ (f : FontTable) (c : Byte) (k : Nat) (h : k < f.patterns.length),
    c.toNat = f.baseChar.toNat + k → encodeChar f c = f.patterns[k]) ∧
  (∀ (f : FontTable) (c : Byte), c.toNat < f.baseChar.toNat → encodeChar f c = 0x00#8) ∧
  (∀ (f : FontTable) (c : Byte), f.baseChar.toNat + f.symbolCount ≤ c.toNat → encodeChar f c = 0x00#8) ∧
  (∀ k < 10, encodeChar fontDec (BitVec.ofNat 8 (0x30 + k)) =
    ([0x3F, 0x06, 0x5B, 0x4F, 0x66, 0x6D, 0x7D, 0x07, 0x7F, 0x6F] : List Byte).getD k 0) ∧
  (∀ c ∈ ([0x2F, 0x3A, 0x00, 0x20, 0x41, 0xFF] : List Byte), encodeChar fontDec c = 0x00#8)

/-- `ENCODE` run by itself writes no register and emits nothing (R100); the byte it returns appears on
the model's own field `lookupOut` (log 6). -/
def Obligations.EncodeReturnsThePattern : Prop :=
  ∀ (c : Byte) (s : State) (f : FontTable), s.params.fonts[s.fontSel.toNat]? = some f →
    exec (.encode c) s =
      .next { s with lookupOut :=
        (if f.baseChar.toNat ≤ c.toNat ∧ c.toNat < f.baseChar.toNat + f.patterns.length then
          f.patterns.getD (c.toNat - f.baseChar.toNat) 0 else 0x00#8) }

/-! ### Wire command bytes -/

/-- A wire command called by itself on an idle initialised block starts the one-byte frame of its byte
(R80 to R82, R114; that it may be called by itself is the model's choice, log 5). -/
def Obligations.WireCommandsStartTheirFrame : Prop :=
  ∀ s : State, s.busy = false → s.lifecycle = .initialized →
    exec .cmdData s = .next (byteAccepted 0x40#8 s) ∧
    exec .cmdAddr s = .next (byteAccepted 0xC0#8 s) ∧
    exec .cmdCtrlOff s = .next (byteAccepted 0x80#8 s) ∧
    ∀ k : BitVec 3, exec (.cmdCtrlOn k) s = .next (byteAccepted (BitVec.ofNat 8 (0x88 + k.toNat)) s)

/-! ### The sequencer, one event a step -/

/-- R121: the `PSTART` table. -/
def Obligations.PstartSteps : Prop :=
  ∀ s : State, s.busy = true → s.phase = .pstart →
    (s.step = 0 → exec .wstart s = .next { s with trace := s.trace ++ [.w s.dataPin true], step := 1 }) ∧
    (s.step = 1 → exec .wstart s = .next { s with trace := s.trace ++ [.w s.clockPin true], step := 2 }) ∧
    (s.step = 2 → exec .wstart s = .next { s with trace := s.trace ++ [.s s.params.clockDelay], step := 3 }) ∧
    (s.step = 3 → s.txLen = 0 → exec .wstart s =
      .next { s with trace := s.trace ++ [.w s.dataPin false], phase := .pstop, step := 0 }) ∧
    (s.step = 3 → s.txLen ≠ 0 → exec .wstart s =
      .next { s with
        trace := s.trace ++ [.w s.dataPin false], shreg := s.txBuf.e0, bitCnt := 0,
        phase := .pshift, step := 0 })

/-- R122: the `PSHIFT` table. -/
def Obligations.PshiftSteps : Prop :=
  ∀ s : State, s.busy = true → s.phase = .pshift →
    (s.step = 0 → exec .wshift s = .next { s with trace := s.trace ++ [.w s.clockPin false], step := 1 }) ∧
    (s.step = 1 → exec .wshift s =
      .next { s with trace := s.trace ++ [.w s.dataPin (s.shreg.getLsbD 0)], step := 2 }) ∧
    (s.step = 2 → exec .wshift s = .next { s with trace := s.trace ++ [.s s.params.clockDelay], step := 3 }) ∧
    (s.step = 3 → exec .wshift s = .next { s with trace := s.trace ++ [.w s.clockPin true], step := 4 }) ∧
    (s.step = 4 → s.bitCnt + 1 = 8 → exec .wshift s =
      .next { s with
        trace := s.trace ++ [.s s.params.clockDelay], shreg := s.shreg >>> 1,
        bitCnt := s.bitCnt + 1, phase := .pack, step := 0 }) ∧
    (s.step = 4 → s.bitCnt + 1 ≠ 8 → exec .wshift s =
      .next { s with
        trace := s.trace ++ [.s s.params.clockDelay], shreg := s.shreg >>> 1,
        bitCnt := s.bitCnt + 1, phase := .pshift, step := 0 })

/-- R123: the `PACK` table. -/
def Obligations.PackSteps : Prop :=
  ∀ s : State, s.busy = true → s.phase = .pack →
    (s.step = 0 → exec .wack s = .next { s with trace := s.trace ++ [.w s.clockPin false], step := 1 }) ∧
    (s.step = 1 → exec .wack s = .next { s with trace := s.trace ++ [.s s.params.clockDelay], step := 2 }) ∧
    (s.step = 2 → exec .wack s = .next { s with trace := s.trace ++ [.w s.clockPin true], step := 3 }) ∧
    (s.step = 3 → exec .wack s = .next { s with trace := s.trace ++ [.s s.params.clockDelay], step := 4 }) ∧
    (s.step = 4 → s.txIdx + 1 = s.txLen → exec .wack s =
      .next { s with
        trace := s.trace ++ [.w s.clockPin false], txIdx := s.txIdx + 1,
        phase := .pstop, step := 0 }) ∧
    (∀ b, s.step = 4 → s.txIdx + 1 ≠ s.txLen → s.txBuf.toList[(s.txIdx + 1).toNat]? = some b →
      exec .wack s =
        .next { s with
          trace := s.trace ++ [.w s.clockPin false], txIdx := s.txIdx + 1, shreg := b,
          bitCnt := 0, phase := .pshift, step := 0 })

/-- R124: the `PSTOP` table; the further frames of `legacy3` are those of R144. -/
def Obligations.PstopSteps : Prop :=
  ∀ s : State, s.busy = true → s.phase = .pstop →
    (s.step = 0 → exec .wstop s = .next { s with trace := s.trace ++ [.w s.clockPin false], step := 1 }) ∧
    (s.step = 1 → exec .wstop s = .next { s with trace := s.trace ++ [.s s.params.clockDelay], step := 2 }) ∧
    (s.step = 2 → exec .wstop s = .next { s with trace := s.trace ++ [.w s.dataPin false], step := 3 }) ∧
    (s.step = 3 → exec .wstop s = .next { s with trace := s.trace ++ [.s s.params.clockDelay], step := 4 }) ∧
    (s.step = 4 → exec .wstop s = .next { s with trace := s.trace ++ [.w s.clockPin true], step := 5 }) ∧
    (s.step = 5 → exec .wstop s = .next { s with trace := s.trace ++ [.s s.params.clockDelay], step := 6 }) ∧
    (s.step = 6 → s.further = .nothing → exec .wstop s =
      .next { s with
        trace := s.trace ++ [.w s.dataPin true], status := .ok, busy := false,
        phase := .idle, step := 0 }) ∧
    (s.step = 6 → s.further = .addrFrame → exec .wstop s =
      .next { s with
        trace := s.trace ++ [.w s.dataPin true], txBuf := { s.txBuf with e0 := 0xC0#8 },
        txLen := 1, ackAcc := true, txIdx := 0, phase := .pstart, step := 0, further := .segFrame }) ∧
    (s.step = 6 → s.further = .segFrame → exec .wstop s =
      .next { s with
        trace := s.trace ++ [.w s.dataPin true],
        txBuf := { s.txBuf with e0 := s.seg.d0, e1 := s.seg.d1, e2 := s.seg.d2, e3 := s.seg.d3 },
        txLen := 4, ackAcc := true, txIdx := 0, phase := .pstart, step := 0, further := .nothing })

/-- R125: the `PINIT` table, and that the pins and the font are written at acceptance, before step 0. -/
def Obligations.PinitSteps : Prop :=
  (∀ (cp dp : PinId) (fs : Byte) (s t : State), s.busy = false → s.lifecycle = .uninitialized →
    fs.toNat < s.params.nFonts → exec (.init cp dp fs) s = .next t →
    t.clockPin = cp ∧ t.dataPin = dp ∧ t.fontSel = fs ∧ t.phase = .pinit ∧ t.step = 0) ∧
  (∀ s : State, s.busy = true → s.phase = .pinit →
    (s.step = 0 → exec .pinit s = .next { s with trace := s.trace ++ [.cfg s.clockPin], step := 1 }) ∧
    (s.step = 1 → exec .pinit s = .next { s with trace := s.trace ++ [.cfg s.dataPin], step := 2 }) ∧
    (s.step = 2 → exec .pinit s = .next { s with trace := s.trace ++ [.w s.clockPin false], step := 3 }) ∧
    (s.step = 3 → exec .pinit s =
      .next { s with
        trace := s.trace ++ [.w s.dataPin false], lifecycle := .initialized, status := .ok,
        busy := false, phase := .idle, step := 0 }))

/-! ### The procedures as runs of the sequencer -/

/-- `WSTART` (R110): four steps emit its four events and lead to the first byte, or to the stop of an
empty frame (R121). -/
def Obligations.StartRunEmitsTheStartCondition : Prop :=
  ∀ s : State, Running s → s.phase = .pstart → s.step = 0 →
    (s.txLen = 0 → Runs 4 s { s with
      trace := s.trace ++ [.w s.dataPin true, .w s.clockPin true, .s s.params.clockDelay, .w s.dataPin false],
      phase := .pstop, step := 0 }) ∧
    (s.txLen ≠ 0 → Runs 4 s { s with
      trace := s.trace ++ [.w s.dataPin true, .w s.clockPin true, .s s.params.clockDelay, .w s.dataPin false],
      shreg := s.txBuf.e0, bitCnt := 0, phase := .pshift, step := 0 })

/-- R112: `WSHIFT` sends the eight bits of the loaded byte, bit 0 first, forty events, and ends with
`shreg` 0x00 and `bitCnt` 8; its phase code is 0b011. -/
def Obligations.ShiftRunSendsTheByteLowBitFirst : Prop :=
  decode (.phase 0b011#3) = .instr .wshift ∧
  ∀ s : State, Running s → s.phase = .pshift → s.step = 0 → s.bitCnt = 0 →
    Runs 40 s { s with
      trace := s.trace ++ (List.range 8).flatMap (fun i =>
        [.w s.clockPin false, .w s.dataPin (s.shreg.getLsbD i), .s s.params.clockDelay,
          .w s.clockPin true, .s s.params.clockDelay]),
      shreg := 0x00#8, bitCnt := 8, phase := .pack, step := 0 }

/-- `WACK` (R113): five events on the clock line only, the acknowledgement taken as 1 so that `ackAcc`
keeps its value; then the stop or the next byte (R123). -/
def Obligations.AckRunPulsesTheClock : Prop :=
  ∀ s : State, Running s → s.phase = .pack → s.step = 0 →
    (s.txIdx + 1 = s.txLen → Runs 5 s { s with
      trace := s.trace ++ [.w s.clockPin false, .s s.params.clockDelay, .w s.clockPin true,
        .s s.params.clockDelay, .w s.clockPin false],
      txIdx := s.txIdx + 1, phase := .pstop, step := 0 }) ∧
    (∀ b, s.txIdx + 1 ≠ s.txLen → s.txBuf.toList[(s.txIdx + 1).toNat]? = some b → Runs 5 s { s with
      trace := s.trace ++ [.w s.clockPin false, .s s.params.clockDelay, .w s.clockPin true,
        .s s.params.clockDelay, .w s.clockPin false],
      txIdx := s.txIdx + 1, shreg := b, bitCnt := 0, phase := .pshift, step := 0 })

/-- `WSTOP` (R111): seven events; after the last frame of a request `status <- OK` and idle (R124). -/
def Obligations.StopRunEmitsTheStopCondition : Prop :=
  ∀ s : State, Running s → s.phase = .pstop → s.step = 0 → s.further = .nothing →
    Runs 7 s { s with
      trace := s.trace ++ [.w s.clockPin false, .s s.params.clockDelay, .w s.dataPin false,
        .s s.params.clockDelay, .w s.clockPin true, .s s.params.clockDelay, .w s.dataPin true],
      status := .ok, busy := false, phase := .idle, step := 0 }

/-- The pin set-up of an `INIT` taken from the request port (R120, R125, R126, R140, R141): four events in this
order with the pins just stored, no sleep; afterwards both pins are outputs at level 0. That the run takes
five steps, the first an acceptance without event, is log 10; the host's list is log 2. -/
def Obligations.InitRunSetsUpThePins : Prop :=
  ∀ (s : State) (w : ReqWord) (rest : List ReqWord) (cp dp : PinId) (fs : Byte),
    PortOpen s → s.lifecycle = .uninitialized → s.hostReqs = w :: rest →
    decode (.req w) = .instr (.init cp dp fs) → fs.toNat < s.params.nFonts →
    Runs 5 s { s with
      hostReqs := rest, clockPin := cp, dataPin := dp, fontSel := fs, lifecycle := .initialized,
      status := .ok, phase := .idle, step := 0,
      trace := s.trace ++ [.cfg cp, .cfg dp, .w cp false, .w dp false] } ∧
    ∀ q, q = cp ∨ q = dp →
      pinDir (s.trace ++ [.cfg cp, .cfg dp, .w cp false, .w dp false]) q = .output ∧
      pinLevel (s.trace ++ [.cfg cp, .cfg dp, .w cp false, .w dp false]) q = some false

/-- Agreement of the two forms for a frame (R114, R126): from (`PSTART`, 0) the steps emit exactly
`WFRAME` of the loaded bytes and leave `ackAcc = 1`, `txIdx = txLen`; of any length 0 to 6. -/
def Obligations.FrameRunEmitsExactlyItsFrame : Prop :=
  ∀ s : State, Running s → s.phase = .pstart → s.step = 0 → s.txIdx = 0 → s.txLen.toNat ≤ 6 →
    s.ackAcc = true → s.further = .nothing →
    Runs (11 + 45 * s.txLen.toNat) s { s with
      trace := s.trace ++ wframeEvents s.clockPin s.dataPin s.params.clockDelay
        (s.txBuf.toList.take s.txLen.toNat),
      txIdx := s.txLen, shreg := if s.txLen = 0 then s.shreg else 0,
      bitCnt := if s.txLen = 0 then s.bitCnt else 8,
      status := .ok, busy := false, phase := .idle, step := 0 }

/-- Agreement of the two forms for a request (R13, R126, R139 to R151, R154, R178): presented on the
port of an idle block it runs, step by step, to exactly the state of the request carried out whole,
in as many steps as events plus one for the acceptance, which emits nothing (log 10); the host's list is
log 2, the register for the further frames of `legacy3` log 3. -/
def Obligations.RequestRunAgreesWithTheWholeRequest : Prop :=
  ∀ (s : State) (w : ReqWord) (rest : List ReqWord), s.Inv → PortOpen s → s.hostReqs = w :: rest →
    Runs (1 + ((wholeRequest (decodeReq w) { s with hostReqs := rest }).trace.length - s.trace.length)) s
      (wholeRequest (decodeReq w) { s with hostReqs := rest })

/-- A run of a finite list of requests (R64, R206): from any idle block it ends, idle, in the state of
the requests carried out whole one after the other. -/
def Obligations.EveryRunOfRequestsEndsInTheWholeRun : Prop :=
  ∀ s : State, s.Inv → PortOpen s →
    ∃ n, Runs n s (wholeRun (s.hostReqs.map decodeReq) { s with hostReqs := [] }) ∧
      (wholeRun (s.hostReqs.map decodeReq) { s with hostReqs := [] }).busy = false

/-- The event counts of the requests (R154, R221), carried out whole on an initialised block. -/
def Obligations.WholeRequestsEmitTheirEventCounts : Prop :=
  ∀ s : State, s.lifecycle = .initialized → s.fontSel.toNat < s.params.nFonts →
    (∀ l, (wholeRequest (.bright l) s).trace.length = s.trace.length + 56) ∧
    (∀ a b c d e, (wholeRequest (.digits a b c d e) s).trace.length =
      s.trace.length + (if s.params.frameMode = .single then 281 else 303)) ∧
    (∀ v, (wholeRequest (.int v) s).trace.length =
      s.trace.length + (if s.params.frameMode = .single then 281 else 303)) ∧
    (∀ e, (wholeRequest (.colon e) s).trace.length =
      s.trace.length + (if s.params.frameMode = .single then 281 else 303))

/-- The colon round trip (R152), run on the machine: after `COLON 1; COLON 0` the buffer is the one
before with bit 7 of entry 1 cleared, after `COLON 0; COLON 1` with it set. -/
def Obligations.ColonRoundTripKeepsTheDigits : Prop :=
  ∀ (s : State), s.Inv → PortOpen s → s.lifecycle = .initialized →
    (s.hostReqs = [0x40000000001#43, 0x40000000000#43] →
      ∃ n t, Runs n s t ∧ t.busy = false ∧ t.hostReqs = [] ∧
        t.seg = { s.seg with d1 := s.seg.d1 &&& 0x7F#8 }) ∧
    (s.hostReqs = [0x40000000000#43, 0x40000000001#43] →
      ∃ n t, Runs n s t ∧ t.busy = false ∧ t.hostReqs = [] ∧
        t.seg = { s.seg with d1 := s.seg.d1 ||| 0x80#8 })

/-! ### Properties of a frame -/

/-- The shape of a frame and its counts, for every number of bytes (R115). Its least duration, the sum of its
sleeps, rests on R12 and R221 and on log 9. -/
def Obligations.FrameShapeAndCounts : Prop :=
  ∀ (c d : PinId) (t : Nat) (bytes : List Byte),
    wframeEvents c d t bytes =
      wstartEvents c d t ++ (bytes.map fun b => wshiftEvents c d t b ++ wackEvents c t).flatten ++
        wstopEvents c d t ∧
    (wframeEvents c d t bytes).length = 11 + 45 * bytes.length ∧
    (wframeEvents c d t bytes).countP Event.isWrite = 7 + 27 * bytes.length ∧
    (wframeEvents c d t bytes).countP Event.isSleep = 4 + 18 * bytes.length ∧
    minDuration (wframeEvents c d t bytes) = (4 + 18 * bytes.length) * t

/-- The waveform of a frame on two distinct lines (R117): from both lines at one level the data line
changes while the clock is high exactly twice, falling at the start and rising at the stop; the clock
rises `2 + 9n` times from both low and `1 + 9n` times from both high; both lines end high. -/
def Obligations.FrameWaveformHasOneStartAndOneStop : Prop :=
  ∀ (c d : PinId) (t : Nat) (bytes : List Byte) (level : Bool), c ≠ d →
    dataChangesWhileHigh c d ⟨level, level⟩ (wframeEvents c d t bytes) = [false, true] ∧
    clockRises c d ⟨level, level⟩ (wframeEvents c d t bytes) =
      (if level then 1 else 2) + 9 * bytes.length ∧
    linesEnd c d ⟨level, level⟩ (wframeEvents c d t bytes) = ⟨true, true⟩

/-- The line levels at rest (R41): both low after the pin set-up, both high after any frame, whatever
was emitted before. -/
def Obligations.LinesRestLowAfterInitAndHighAfterAFrame : Prop :=
  ∀ (T : List Event) (c d : PinId) (t : Nat) (bytes : List Byte),
    pinLevel (T ++ pinSetupEvents c d) c = some false ∧ pinLevel (T ++ pinSetupEvents c d) d = some false ∧
    pinLevel (T ++ wframeEvents c d t bytes) c = some true ∧
    pinLevel (T ++ wframeEvents c d t bytes) d = some true

/-! ### The invariant and the end of a request -/

/-- The invariant holds after reset, for every parameter value with at least one font (R6, R43). -/
def Obligations.ResetMeetsTheInvariant : Prop :=
  (∀ p : Params, 0 < p.nFonts → (State.resetWith p).Inv) ∧ State.reset.Inv

/-- Every step keeps the invariant (R24, R27, R28, R33, R40). -/
def Obligations.StepKeepsTheInvariant : Prop :=
  ∀ s t : State, s.Inv → step s = .next t → t.Inv

/-- No step stops (R119, R126): under the invariant a step answers a next state, unless the model's own
direct call (log 5) holds a byte that is no command. -/
def Obligations.NoStepStopsUnderTheInvariant : Prop :=
  ∀ s : State, s.Inv → NoBadDirect s → ∃ t, step s = .next t

/-- Under the invariant exactly one procedure is enabled while busy, and none while idle (R126). -/
def Obligations.ExactlyOneProcedureIsEnabledWhileBusy : Prop :=
  (∀ s : State, s.Inv → s.busy = true → ∃! i : Instr, i.format = .phase ∧ ∃ t, exec i s = .next t) ∧
  (∀ (s : State) (i : Instr), s.busy = false → i.format = .phase → exec i s = .fault .position)

/-- Every step of a request in flight emits exactly one event and leaves exactly one event less to
come; nothing is left exactly when the block is idle (R33, R126). -/
def Obligations.EachStepEmitsOneOfTheEventsLeft : Prop :=
  (∀ s : State, s.Inv → Running s → ∃ t e, step s = .next t ∧ t.trace = s.trace ++ [e] ∧
    eventsLeft t + 1 = eventsLeft s) ∧
  (∀ s : State, s.Inv → (s.busy = false ↔ eventsLeft s = 0))

/-- A request in flight always finishes (R126, R206), after exactly the events it has left, with `OK`
and `ackAcc = 1`. -/
def Obligations.RequestInFlightFinishes : Prop :=
  ∀ s : State, s.Inv → Running s → ∃ t, Runs (eventsLeft s) s t ∧ t.busy = false ∧ t.status = .ok ∧
    t.ackAcc = true ∧ t.trace.length = s.trace.length + eventsLeft s

/-! ### Whole-machine rules -/

/-- R203: reset is the only way back to `Uninitialized`. -/
def Obligations.OnlyResetLeavesInitialized : Prop :=
  (∀ s t : State, s.lifecycle = .initialized → step s = .next t → t.lifecycle = .uninitialized →
    s.resetIn = true) ∧
  (∀ s : State, s.resetIn = true → ∃ t, step s = .next t ∧ t.lifecycle = .uninitialized)

/-- R21, R153: `Initialized` is entered only by the last pin set-up step of an `INIT`. -/
def Obligations.OnlyInitEntersInitialized : Prop :=
  ∀ s t : State, s.lifecycle = .uninitialized → step s = .next t → t.lifecycle = .initialized →
    s.busy = true ∧ s.phase = .pinit ∧ s.step = 3 ∧ t.status = .ok ∧ t.busy = false

/-- The trace only grows (R35): outside reset a step appends at most one event, one exactly while
busy, and removes or reorders nothing. -/
def Obligations.TraceOnlyGrows : Prop :=
  ∀ s t : State, s.resetIn = false → step s = .next t →
    (s.busy = true → ∃ e, t.trace = s.trace ++ [e]) ∧ (s.busy = false → t.trace = s.trace)

/-- The block never reads `T` (R20, R35): with other events emitted before, a step does the same and
appends the same. -/
def Obligations.TraceIsNeverRead : Prop :=
  ∀ (s : State) (T : List Event), s.resetIn = false →
    step { s with trace := T } =
      match step s with
      | .next t => .next { t with trace := T ++ t.trace.drop s.trace.length }
      | .fault r => .fault r
      | .refused r => .refused r

/-- `status` and `ackAcc` are read by no rule of the block (R37): with other values before, a step
does the same to everything else. -/
def Obligations.StatusAndAckSteerNothing : Prop :=
  ∀ (s t : State) (c : Status) (a : Bool), step s = .next t →
    ∃ t', step { s with status := c, ackAcc := a } = .next t' ∧
      { t' with status := t.status, ackAcc := t.ackAcc } = t

/-- `seg` is written only by `DIGITS`, `INT` and `COLON`, at acceptance (R25, R42); `COLON` writes
entry 1 alone. -/
def Obligations.OnlyShowRequestsWriteTheSegmentBuffer : Prop :=
  ∀ s t : State, s.resetIn = false → step s = .next t → t.seg ≠ s.seg →
    ∃ w rest, s.busy = false ∧ s.hostReqs = w :: rest ∧
      ((∃ a b c d e, decodeReq w = .digits a b c d e) ∨ (∃ v, decodeReq w = .int v) ∨
        (∃ e, decodeReq w = .colon e ∧
          t.seg.d0 = s.seg.d0 ∧ t.seg.d2 = s.seg.d2 ∧ t.seg.d3 = s.seg.d3))

/-- The parameters are constant for the life of an instance (R6: "no rule writes one"). -/
def Obligations.ParametersNeverChange : Prop :=
  ∀ s t : State, step s = .next t → t.params = s.params

/-! ### Frames -/

/-- What a request leaves unchanged at acceptance, in every state and on every path (R13, R42, R120,
R172, R174, R179). -/
def Obligations.RequestFrame : Prop :=
  ∀ (i : Instr) (s t : State), i.format = .req → exec i s = .next t →
    t.params = s.params ∧ t.trace = s.trace ∧ t.lifecycle = s.lifecycle ∧ t.shreg = s.shreg ∧
    t.bitCnt = s.bitCnt ∧ t.hostReqs = s.hostReqs ∧ t.resetIn = s.resetIn ∧ t.direct = s.direct ∧
    t.lookupOut = s.lookupOut ∧
    (t.status = s.status ∨ t = { s with status := t.status }) ∧
    ((∃ cp dp fs, i = .init cp dp fs) → t.seg = s.seg ∧ t.txBuf = s.txBuf ∧ t.txLen = s.txLen ∧
      t.txIdx = s.txIdx ∧ t.ackAcc = s.ackAcc ∧ t.further = s.further) ∧
    ((∀ cp dp fs, i ≠ .init cp dp fs) → t.clockPin = s.clockPin ∧ t.dataPin = s.dataPin ∧
      t.fontSel = s.fontSel) ∧
    ((∃ l, i = .bright l) → t.seg = s.seg) ∧
    ((∃ l, i = .bright l) ∨ s.params.frameMode = .legacy3 → t.txBuf = { s.txBuf with e0 := t.txBuf.e0 }) ∧
    ((∃ e, i = .colon e) → t.seg.d0 = s.seg.d0 ∧ t.seg.d2 = s.seg.d2 ∧ t.seg.d3 = s.seg.d3) ∧
    (i = .reserved5 ∨ i = .reserved6 ∨ i = .reserved7 → t = { s with status := t.status })

/-- What a sequencer step leaves unchanged (R42, R121 to R125). -/
def Obligations.SequencerFrame : Prop :=
  ∀ (i : Instr) (s t : State), i.format = .phase → exec i s = .next t →
    t.params = s.params ∧ t.clockPin = s.clockPin ∧ t.dataPin = s.dataPin ∧ t.fontSel = s.fontSel ∧
    t.seg = s.seg ∧ t.hostReqs = s.hostReqs ∧ t.resetIn = s.resetIn ∧ t.direct = s.direct ∧
    t.lookupOut = s.lookupOut ∧
    (t.busy = true → t.status = s.status) ∧
    (i ≠ .pinit ∨ s.step ≠ 3 → t.lifecycle = s.lifecycle) ∧
    (i ≠ .wstop ∨ s.further = .nothing → t.txBuf = s.txBuf ∧ t.txLen = s.txLen ∧ t.further = s.further ∧ t.ackAcc = s.ackAcc) ∧
    (i ≠ .wack → i ≠ .wstop ∨ s.further = .nothing → t.txIdx = s.txIdx) ∧
    (i = .pinit ∨ i = .wstop → t.shreg = s.shreg ∧ t.bitCnt = s.bitCnt)

/-- What a directly called wire command or look-up leaves unchanged (R100; log 5, log 6). -/
def Obligations.DirectCallFrame : Prop :=
  (∀ (i : Instr) (s t : State), i.format = .wire → exec i s = .next t →
    t.params = s.params ∧ t.trace = s.trace ∧ t.lifecycle = s.lifecycle ∧ t.clockPin = s.clockPin ∧
    t.dataPin = s.dataPin ∧ t.fontSel = s.fontSel ∧ t.seg = s.seg ∧ t.shreg = s.shreg ∧
    t.bitCnt = s.bitCnt ∧ t.hostReqs = s.hostReqs ∧ t.resetIn = s.resetIn ∧ t.direct = s.direct ∧
    t.lookupOut = s.lookupOut ∧ t.txBuf = { s.txBuf with e0 := t.txBuf.e0 } ∧
    (t.status = s.status ∨ t = { s with status := t.status })) ∧
  (∀ (c : Byte) (s t : State), exec (.encode c) s = .next t → t = { s with lookupOut := t.lookupOut })
end

