-- ==== Sys2Proof/Laws/Encoding.lean ====
section
/-! SUPPORT. Laws/Encoding.lean: the fields of a request word as numbers, and the numbers of the encoder's
concatenations, so that encoding proofs are arithmetic. -/

namespace Sys2Proof

theorem reqOpcode_toNat (w : ReqWord) : (reqOpcode w).toNat = w.toNat / 2 ^ 40 := by
  simp only [reqOpcode, BitVec.extractLsb'_toNat, Nat.shiftRight_eq_div_pow]
  have := w.isLt
  omega

theorem reqByte_toNat (i : Nat) (w : ReqWord) :
    (reqByte i w).toNat = w.toNat / 2 ^ (8 * i) % 2 ^ 8 := by
  simp only [reqByte, BitVec.extractLsb'_toNat, Nat.shiftRight_eq_div_pow]

/-- Concatenation as a number: the high part times the low part's range, plus the low part. -/
theorem toNat_concat {m n : Nat} (x : BitVec m) (y : BitVec n) :
    (x ++ y).toNat = x.toNat * 2 ^ n + y.toNat := by
  rw [BitVec.toNat_append, ← Nat.shiftLeft_add_eq_or_of_lt y.isLt, Nat.shiftLeft_eq]

/-- The number of a request word. -/
theorem reqConcat_toNat (op : BitVec 3) (opnd : BitVec 40) :
    (show ReqWord from op ++ opnd).toNat = op.toNat * 2 ^ 40 + opnd.toNat := toNat_concat op opnd

/-- The opcode of a request word is the one it was built with. -/
theorem reqOpcode_concat (op : BitVec 3) (opnd : BitVec 40) : reqOpcode (op ++ opnd) = op := by
  apply BitVec.eq_of_toNat_eq
  rw [reqOpcode_toNat, reqConcat_toNat]
  have := opnd.isLt
  omega

end Sys2Proof
end

