-- ==== Sys2Proof/Laws/Events.lean ====
section
/-! SUPPORT. Laws/Events.lean: the functions of an event list over a concatenation (R12, R40, R115, R117). -/

namespace Sys2Proof.Machine

@[simp] theorem minDuration_append (a b : List Event) :
    minDuration (a ++ b) = minDuration a + minDuration b := by
  induction a with
  | nil => simp [minDuration]
  | cons e a ih => cases e <;> simp [minDuration, ih, Nat.add_assoc]

theorem linesEnd_append (c d : PinId) (a b : List Event) (l : Lines) :
    linesEnd c d l (a ++ b) = linesEnd c d (linesEnd c d l a) b := by
  induction a generalizing l with
  | nil => rfl
  | cons e a ih => simp [linesEnd, ih]

theorem clockRises_append (c d : PinId) (a b : List Event) (l : Lines) :
    clockRises c d l (a ++ b) = clockRises c d l a + clockRises c d (linesEnd c d l a) b := by
  induction a generalizing l with
  | nil => simp [clockRises, linesEnd]
  | cons e a ih => simp [linesEnd, clockRises, ih, Nat.add_assoc]

theorem dataChangesWhileHigh_append (c d : PinId) (a b : List Event) (l : Lines) :
    dataChangesWhileHigh c d l (a ++ b) =
      dataChangesWhileHigh c d l a ++ dataChangesWhileHigh c d (linesEnd c d l a) b := by
  induction a generalizing l with
  | nil => simp [dataChangesWhileHigh, linesEnd]
  | cons e a ih => simp [linesEnd, dataChangesWhileHigh, ih]

/-- A trace stays configured when the event added is no write to a pin without configuration. -/
theorem configuredFrom_concat (e : Event) (before T : List Event) :
    configuredFrom before (T ++ [e]) ↔
      configuredFrom before T ∧ ∀ p l, e = .w p l → .cfg p ∈ before ++ T := by
  induction T generalizing before with
  | nil => cases e <;> simp [configuredFrom]
  | cons a T ih => cases a <;> simp [configuredFrom, ih, and_assoc]

end Sys2Proof.Machine
end

