-- ==== Sys2Proof/Laws/State.lean ====
section
/-! SUPPORT. Laws/State.lean: for each shared operation that rewrites the state, what each field holds
afterwards, so that no later proof unfolds a record update. -/

namespace Sys2Proof.Machine

section EmitFields
variable (e : Event) (s : State)
@[simp] theorem emit_params : (emit e s).params = s.params := rfl
@[simp] theorem emit_lifecycle : (emit e s).lifecycle = s.lifecycle := rfl
@[simp] theorem emit_clockPin : (emit e s).clockPin = s.clockPin := rfl
@[simp] theorem emit_dataPin : (emit e s).dataPin = s.dataPin := rfl
@[simp] theorem emit_fontSel : (emit e s).fontSel = s.fontSel := rfl
@[simp] theorem emit_seg : (emit e s).seg = s.seg := rfl
@[simp] theorem emit_status : (emit e s).status = s.status := rfl
@[simp] theorem emit_ackAcc : (emit e s).ackAcc = s.ackAcc := rfl
@[simp] theorem emit_busy : (emit e s).busy = s.busy := rfl
@[simp] theorem emit_txBuf : (emit e s).txBuf = s.txBuf := rfl
@[simp] theorem emit_txLen : (emit e s).txLen = s.txLen := rfl
@[simp] theorem emit_txIdx : (emit e s).txIdx = s.txIdx := rfl
@[simp] theorem emit_shreg : (emit e s).shreg = s.shreg := rfl
@[simp] theorem emit_bitCnt : (emit e s).bitCnt = s.bitCnt := rfl
@[simp] theorem emit_phase : (emit e s).phase = s.phase := rfl
@[simp] theorem emit_step : (emit e s).step = s.step := rfl
@[simp] theorem emit_further : (emit e s).further = s.further := rfl
@[simp] theorem emit_trace : (emit e s).trace = s.trace ++ [e] := rfl
@[simp] theorem emit_hostReqs : (emit e s).hostReqs = s.hostReqs := rfl
@[simp] theorem emit_resetIn : (emit e s).resetIn = s.resetIn := rfl
@[simp] theorem emit_direct : (emit e s).direct = s.direct := rfl
@[simp] theorem emit_lookupOut : (emit e s).lookupOut = s.lookupOut := rfl
end EmitFields

section GoToFields
variable (p : Phase) (k : BitVec 3) (s : State)
@[simp] theorem goTo_params : (goTo p k s).params = s.params := rfl
@[simp] theorem goTo_lifecycle : (goTo p k s).lifecycle = s.lifecycle := rfl
@[simp] theorem goTo_clockPin : (goTo p k s).clockPin = s.clockPin := rfl
@[simp] theorem goTo_dataPin : (goTo p k s).dataPin = s.dataPin := rfl
@[simp] theorem goTo_fontSel : (goTo p k s).fontSel = s.fontSel := rfl
@[simp] theorem goTo_seg : (goTo p k s).seg = s.seg := rfl
@[simp] theorem goTo_status : (goTo p k s).status = s.status := rfl
@[simp] theorem goTo_ackAcc : (goTo p k s).ackAcc = s.ackAcc := rfl
@[simp] theorem goTo_busy : (goTo p k s).busy = s.busy := rfl
@[simp] theorem goTo_txBuf : (goTo p k s).txBuf = s.txBuf := rfl
@[simp] theorem goTo_txLen : (goTo p k s).txLen = s.txLen := rfl
@[simp] theorem goTo_txIdx : (goTo p k s).txIdx = s.txIdx := rfl
@[simp] theorem goTo_shreg : (goTo p k s).shreg = s.shreg := rfl
@[simp] theorem goTo_bitCnt : (goTo p k s).bitCnt = s.bitCnt := rfl
@[simp] theorem goTo_phase : (goTo p k s).phase = p := rfl
@[simp] theorem goTo_step : (goTo p k s).step = k := rfl
@[simp] theorem goTo_further : (goTo p k s).further = s.further := rfl
@[simp] theorem goTo_trace : (goTo p k s).trace = s.trace := rfl
@[simp] theorem goTo_hostReqs : (goTo p k s).hostReqs = s.hostReqs := rfl
@[simp] theorem goTo_resetIn : (goTo p k s).resetIn = s.resetIn := rfl
@[simp] theorem goTo_direct : (goTo p k s).direct = s.direct := rfl
@[simp] theorem goTo_lookupOut : (goTo p k s).lookupOut = s.lookupOut := rfl
end GoToFields

section StartFrameFields
variable (bs : List Byte) (m : Further) (s : State)
@[simp] theorem startFrame_params : (startFrame bs m s).params = s.params := rfl
@[simp] theorem startFrame_lifecycle : (startFrame bs m s).lifecycle = s.lifecycle := rfl
@[simp] theorem startFrame_clockPin : (startFrame bs m s).clockPin = s.clockPin := rfl
@[simp] theorem startFrame_dataPin : (startFrame bs m s).dataPin = s.dataPin := rfl
@[simp] theorem startFrame_fontSel : (startFrame bs m s).fontSel = s.fontSel := rfl
@[simp] theorem startFrame_seg : (startFrame bs m s).seg = s.seg := rfl
@[simp] theorem startFrame_status : (startFrame bs m s).status = s.status := rfl
@[simp] theorem startFrame_ackAcc : (startFrame bs m s).ackAcc = true := rfl
@[simp] theorem startFrame_busy : (startFrame bs m s).busy = true := rfl
@[simp] theorem startFrame_txBuf : (startFrame bs m s).txBuf = s.txBuf.loadAt 0 bs := rfl
@[simp] theorem startFrame_txLen : (startFrame bs m s).txLen = BitVec.ofNat 3 bs.length := rfl
@[simp] theorem startFrame_txIdx : (startFrame bs m s).txIdx = 0 := rfl
@[simp] theorem startFrame_shreg : (startFrame bs m s).shreg = s.shreg := rfl
@[simp] theorem startFrame_bitCnt : (startFrame bs m s).bitCnt = s.bitCnt := rfl
@[simp] theorem startFrame_phase : (startFrame bs m s).phase = .pstart := rfl
@[simp] theorem startFrame_step : (startFrame bs m s).step = 0 := rfl
@[simp] theorem startFrame_further : (startFrame bs m s).further = m := rfl
@[simp] theorem startFrame_trace : (startFrame bs m s).trace = s.trace := rfl
@[simp] theorem startFrame_hostReqs : (startFrame bs m s).hostReqs = s.hostReqs := rfl
@[simp] theorem startFrame_resetIn : (startFrame bs m s).resetIn = s.resetIn := rfl
@[simp] theorem startFrame_direct : (startFrame bs m s).direct = s.direct := rfl
@[simp] theorem startFrame_lookupOut : (startFrame bs m s).lookupOut = s.lookupOut := rfl
end StartFrameFields

section FinishFields
variable (s : State)
@[simp] theorem finish_params : (finish s).params = s.params := rfl
@[simp] theorem finish_lifecycle : (finish s).lifecycle = s.lifecycle := rfl
@[simp] theorem finish_clockPin : (finish s).clockPin = s.clockPin := rfl
@[simp] theorem finish_dataPin : (finish s).dataPin = s.dataPin := rfl
@[simp] theorem finish_fontSel : (finish s).fontSel = s.fontSel := rfl
@[simp] theorem finish_seg : (finish s).seg = s.seg := rfl
@[simp] theorem finish_status : (finish s).status = .ok := rfl
@[simp] theorem finish_ackAcc : (finish s).ackAcc = s.ackAcc := rfl
@[simp] theorem finish_busy : (finish s).busy = false := rfl
@[simp] theorem finish_txBuf : (finish s).txBuf = s.txBuf := rfl
@[simp] theorem finish_txLen : (finish s).txLen = s.txLen := rfl
@[simp] theorem finish_txIdx : (finish s).txIdx = s.txIdx := rfl
@[simp] theorem finish_shreg : (finish s).shreg = s.shreg := rfl
@[simp] theorem finish_bitCnt : (finish s).bitCnt = s.bitCnt := rfl
@[simp] theorem finish_phase : (finish s).phase = .idle := rfl
@[simp] theorem finish_step : (finish s).step = 0 := rfl
@[simp] theorem finish_further : (finish s).further = s.further := rfl
@[simp] theorem finish_trace : (finish s).trace = s.trace := rfl
@[simp] theorem finish_hostReqs : (finish s).hostReqs = s.hostReqs := rfl
@[simp] theorem finish_resetIn : (finish s).resetIn = s.resetIn := rfl
@[simp] theorem finish_direct : (finish s).direct = s.direct := rfl
@[simp] theorem finish_lookupOut : (finish s).lookupOut = s.lookupOut := rfl
end FinishFields

section StartPinSetupFields
variable (cp dp : PinId) (fs : Byte) (s : State)
@[simp] theorem startPinSetup_params : (startPinSetup cp dp fs s).params = s.params := rfl
@[simp] theorem startPinSetup_lifecycle : (startPinSetup cp dp fs s).lifecycle = s.lifecycle := rfl
@[simp] theorem startPinSetup_clockPin : (startPinSetup cp dp fs s).clockPin = cp := rfl
@[simp] theorem startPinSetup_dataPin : (startPinSetup cp dp fs s).dataPin = dp := rfl
@[simp] theorem startPinSetup_fontSel : (startPinSetup cp dp fs s).fontSel = fs := rfl
@[simp] theorem startPinSetup_seg : (startPinSetup cp dp fs s).seg = s.seg := rfl
@[simp] theorem startPinSetup_status : (startPinSetup cp dp fs s).status = s.status := rfl
@[simp] theorem startPinSetup_ackAcc : (startPinSetup cp dp fs s).ackAcc = s.ackAcc := rfl
@[simp] theorem startPinSetup_busy : (startPinSetup cp dp fs s).busy = true := rfl
@[simp] theorem startPinSetup_txBuf : (startPinSetup cp dp fs s).txBuf = s.txBuf := rfl
@[simp] theorem startPinSetup_txLen : (startPinSetup cp dp fs s).txLen = s.txLen := rfl
@[simp] theorem startPinSetup_txIdx : (startPinSetup cp dp fs s).txIdx = s.txIdx := rfl
@[simp] theorem startPinSetup_shreg : (startPinSetup cp dp fs s).shreg = s.shreg := rfl
@[simp] theorem startPinSetup_bitCnt : (startPinSetup cp dp fs s).bitCnt = s.bitCnt := rfl
@[simp] theorem startPinSetup_phase : (startPinSetup cp dp fs s).phase = .pinit := rfl
@[simp] theorem startPinSetup_step : (startPinSetup cp dp fs s).step = 0 := rfl
@[simp] theorem startPinSetup_further : (startPinSetup cp dp fs s).further = s.further := rfl
@[simp] theorem startPinSetup_trace : (startPinSetup cp dp fs s).trace = s.trace := rfl
@[simp] theorem startPinSetup_hostReqs : (startPinSetup cp dp fs s).hostReqs = s.hostReqs := rfl
@[simp] theorem startPinSetup_resetIn : (startPinSetup cp dp fs s).resetIn = s.resetIn := rfl
@[simp] theorem startPinSetup_direct : (startPinSetup cp dp fs s).direct = s.direct := rfl
@[simp] theorem startPinSetup_lookupOut : (startPinSetup cp dp fs s).lookupOut = s.lookupOut := rfl
end StartPinSetupFields

end Sys2Proof.Machine
end

