-- ==== Sys2Proof/Laws/Ops.lean ====
section
/-! SUPPORT. Laws/Ops.lean: for each shared operation one lemma that says what it can do: the gates of a
request, the gate of a sequencer step, buffer reads and writes, the decoder's phase codes. -/

namespace Sys2Proof.Machine

/-! ### The gates (R72, R139, R172, R178) -/

theorem whenIdle_of_idle {s : State} {r : Result} (h : s.busy = false) : whenIdle s r = r := by
  simp [whenIdle, h]

theorem whenIdle_of_busy {s : State} {r : Result} (h : s.busy = true) : whenIdle s r = .next s := by
  simp [whenIdle, h]

theorem whenInitialized_of_initialized {s : State} {r : Result} (h : s.lifecycle = .initialized) :
    whenInitialized s r = r := by
  simp [whenInitialized, h]

theorem whenInitialized_of_uninitialized {s : State} {r : Result} (h : s.lifecycle = .uninitialized) :
    whenInitialized s r = .next { s with status := .misuse } := by
  simp [whenInitialized, raiseMisuse, raiseError, h]

theorem withFont_of_selected {s : State} {f : FontTable} {r : FontTable → Result}
    (h : selectedFont s = some f) : withFont s r = r f := by
  simp [withFont, h]

/-- A request that answers a next state either waits, or misuses, or runs its body. -/
theorem whenIdle_next {s t : State} {r : Result} (h : whenIdle s r = .next t) :
    (s.busy = true ∧ t = s) ∨ (s.busy = false ∧ r = .next t) := by
  unfold whenIdle at h
  split at h
  · next hb => exact .inl ⟨hb, by simpa using h.symm⟩
  · next hb => exact .inr ⟨by simpa using hb, h⟩

theorem whenInitialized_next {s t : State} {r : Result} (h : whenInitialized s r = .next t) :
    (s.lifecycle = .uninitialized ∧ t = { s with status := .misuse }) ∨
      (s.lifecycle = .initialized ∧ r = .next t) := by
  unfold whenInitialized at h
  split at h
  · next hl => exact .inl ⟨hl, by simpa [raiseMisuse, raiseError] using h.symm⟩
  · next hl => exact .inr ⟨hl, h⟩

theorem withFont_next {s t : State} {r : FontTable → Result} (h : withFont s r = .next t) :
    ∃ f, selectedFont s = some f ∧ r f = .next t := by
  unfold withFont at h
  split at h
  · cases h
  · next f hf => exact ⟨f, hf, h⟩

/-- The selected font exists below `NFONTS` (R24). -/
theorem selectedFont_of_lt {s : State} (h : s.fontSel.toNat < s.params.nFonts) :
    ∃ f, selectedFont s = some f :=
  ⟨s.params.fonts[s.fontSel.toNat]'h, List.getElem?_eq_getElem h⟩

/-- A show request with segment buffer `b`, once written, is accepted as `showAccepted` says. -/
theorem startShow_setSeg (b : SegBuf) (s : State) : startShow { s with seg := b } = showAccepted b s := by
  cases h : s.params.frameMode <;>
    simp [startShow, showAccepted, h, startFrame, TxBuf.loadAt, showBytes, SegBuf.toList, TxBuf.set,
      cmdDataByte, cmdAddrByte]

/-! ### The gate of a sequencer step (R126) -/

theorem inPhase_of {p : Phase} {s : State} {r : Result} (hb : s.busy = true) (hp : s.phase = p) :
    inPhase p s r = r := by
  simp [inPhase, hb, hp]

theorem inPhase_next {p : Phase} {s t : State} {r : Result} (h : inPhase p s r = .next t) :
    s.busy = true ∧ s.phase = p ∧ r = .next t := by
  unfold inPhase at h
  split at h
  · next hp => exact ⟨hp.1, hp.2, h⟩
  · cases h

/-! ### Buffers (R50, R52, R53) -/

@[simp] theorem SegBuf.get_set_same (b : SegBuf) (i : Fin 4) (v : Byte) : (b.set i v).get i = v := by
  fin_cases i <;> rfl

theorem SegBuf.get_set_other (b : SegBuf) {i j : Fin 4} (v : Byte) (h : j ≠ i) :
    (b.set i v).get j = b.get j := by
  fin_cases i <;> fin_cases j <;> first | rfl | exact absurd rfl h

theorem TxBuf.get?_eq_some_of_lt (b : TxBuf) {i : Nat} (h : i < 6) : ∃ v, b.get? i = some v :=
  ⟨b.toList[i]'(by simpa [TxBuf.toList] using h), by simp [TxBuf.get?]⟩

theorem TxBuf.get?_eq_none_of_le (b : TxBuf) {i : Nat} (h : 6 ≤ i) : b.get? i = none := by
  simpa [TxBuf.get?, TxBuf.toList] using h

/-- Loading a byte for shifting answers the next state with that byte, or faults outside the buffer. -/
theorem loadShift_of_get {s : State} {i : Nat} {b : Byte} (h : s.txBuf.get? i = some b) :
    loadShift i s = .next { s with shreg := b, bitCnt := 0, phase := .pshift, step := 0 } := by
  simp [loadShift, h]

theorem loadShift_next {s t : State} {i : Nat} (h : loadShift i s = .next t) :
    ∃ b, s.txBuf.get? i = some b ∧ t = { s with shreg := b, bitCnt := 0, phase := .pshift, step := 0 } := by
  unfold loadShift at h
  split at h
  · cases h
  · next b hb => exact ⟨b, hb, by simpa using h.symm⟩

/-! ### Phase codes (R34) -/

@[simp] theorem Phase.ofCode_code (p : Phase) : Phase.ofCode p.code = some p := by cases p <;> rfl

end Sys2Proof.Machine
end

