-- ==== Sys2Proof/Laws/PerInstr.lean ====
section
/-! SUPPORT. Laws/PerInstr.lean: the per-instruction family `WordFormat`: the word of an instruction lies in
the encoding space of its row of the opcode table and is a row of that table (R73, R80 to R82, R34, R91). -/

namespace Sys2Proof.Laws.WordFormat

/-- The word of `i` lies in the space of `i`'s format and is a row of the table. -/
def Statement (i : Instr) : Prop := (encode i).format = i.format ∧ (encode i).wellFormed = true

theorem init (clockPin dataPin : PinId) (fontSel : Byte) : Statement (.init clockPin dataPin fontSel) :=
  ⟨rfl, rfl⟩

theorem bright (level : Byte) : Statement (.bright level) := ⟨rfl, rfl⟩

theorem digits (t0 t1 t2 t3 t4 : Byte) : Statement (.digits t0 t1 t2 t3 t4) := ⟨rfl, rfl⟩

theorem int (value : BitVec 16) : Statement (.int value) := ⟨rfl, rfl⟩

theorem colon (enabled : BitVec 1) : Statement (.colon enabled) := ⟨rfl, rfl⟩

theorem reserved5 : Statement .reserved5 := ⟨rfl, rfl⟩

theorem reserved6 : Statement .reserved6 := ⟨rfl, rfl⟩

theorem reserved7 : Statement .reserved7 := ⟨rfl, rfl⟩

theorem cmdData : Statement .cmdData := ⟨rfl, rfl⟩

theorem cmdAddr : Statement .cmdAddr := ⟨rfl, rfl⟩

theorem cmdCtrlOff : Statement .cmdCtrlOff := ⟨rfl, rfl⟩

theorem cmdCtrlOn (kMinus1 : BitVec 3) : Statement (.cmdCtrlOn kMinus1) :=
  ⟨rfl, by revert kMinus1; decide⟩

theorem pinit : Statement .pinit := ⟨rfl, rfl⟩

theorem wstart : Statement .wstart := ⟨rfl, rfl⟩

theorem wshift : Statement .wshift := ⟨rfl, rfl⟩

theorem wack : Statement .wack := ⟨rfl, rfl⟩

theorem wstop : Statement .wstop := ⟨rfl, rfl⟩

theorem encode (c : Byte) : Statement (.encode c) := ⟨rfl, rfl⟩

end Sys2Proof.Laws.WordFormat
end

