-- ==== Sys2Proof/Laws/Step.lean ====
section
/-! SUPPORT. Laws/Step.lean: what one step does in each situation, and how runs compose. -/

namespace Sys2Proof.Machine

/-! ### Runs -/

@[simp] theorem runs_zero {s t : State} : Runs 0 s t ↔ t = s := Iff.rfl

theorem runs_succ {n : Nat} {s u t : State} (h : step s = .next u) (hr : Runs n u t) :
    Runs (n + 1) s t := ⟨u, h, hr⟩

theorem runs_one {s t : State} (h : step s = .next t) : Runs 1 s t := ⟨t, h, rfl⟩

theorem runs_trans {m n : Nat} {s u t : State} (h₁ : Runs m s u) (h₂ : Runs n u t) :
    Runs (m + n) s t := by
  induction m generalizing s with
  | zero => cases h₁; simpa using h₂
  | succ m ih =>
    obtain ⟨v, hv, hr⟩ := h₁
    rw [Nat.add_right_comm]
    exact ⟨v, hv, ih hr⟩

/-- The end of a run is determined by its start and its length. -/
theorem runs_unique {n : Nat} {s t t' : State} (h : Runs n s t) (h' : Runs n s t') : t = t' := by
  induction n generalizing s with
  | zero => exact h.trans h'.symm
  | succ n ih =>
    obtain ⟨u, hu, hr⟩ := h
    obtain ⟨u', hu', hr'⟩ := h'
    rw [hu] at hu'
    cases hu'
    exact ih hr hr'

theorem core_run_succ_next {M : Host.Core} {n : Nat} {s u : M.State} (h : M.step s = .next u) :
    M.run (n + 1) s = M.run n u := by
  simp [Host.Core.run, h]

theorem core_run_succ_stops {M : Host.Core} {n : Nat} {s t : M.State}
    (h : M.run (n + 1) s = .next t) : ∃ u, M.step s = .next u := by
  cases hs : M.step s with
  | next u => exact ⟨u, rfl⟩
  | fault r => simp [Host.Core.run, hs] at h
  | refused r => simp [Host.Core.run, hs] at h

/-- `Runs` is the host's own notion of a run. -/
theorem runs_iff_core_run {n : Nat} {s t : State} :
    Runs n s t ↔ Host.Core.run Sys2Proof.core n s = .next t := by
  induction n generalizing s with
  | zero => exact ⟨fun h => by rw [runs_zero.1 h]; rfl, fun h => by injection h with h; exact h.symm⟩
  | succ n ih =>
    constructor
    · rintro ⟨u, hu, hr⟩
      exact (core_run_succ_next (M := Sys2Proof.core) hu).trans (ih.1 hr)
    · intro h
      obtain ⟨u, hu⟩ := core_run_succ_stops (M := Sys2Proof.core) h
      exact ⟨u, hu, ih.2 ((core_run_succ_next (M := Sys2Proof.core) hu).symm.trans h)⟩

/-! ### One step (R72, R126, R200, R202) -/

theorem step_of_reset {s : State} (h : s.resetIn = true) : step s = .next (assertReset s) := by
  simp [step, h]

theorem fetch_of_busy {s : State} (h : s.busy = true) : fetch s = some (.phase s.phase.code, s) := by
  simp [fetch, h]

theorem fetch_of_request {s : State} {w : ReqWord} {rest : List ReqWord} (hb : s.busy = false)
    (hd : s.direct = none) (hq : s.hostReqs = w :: rest) :
    fetch s = some (.req w, { s with hostReqs := rest }) := by
  simp [fetch, hb, hd, hq]

theorem step_request {s : State} {w : ReqWord} {rest : List ReqWord} (h : PortOpen s)
    (hq : s.hostReqs = w :: rest) : step s = exec (decodeReq w) { s with hostReqs := rest } := by
  obtain ⟨hb, hr, hd⟩ := h
  simp [step, hr, fetch_of_request hb hd hq, decode]

theorem step_phase {s : State} {i : Instr} (h : Running s)
    (hp : decodePhase s.phase.code = .instr i) : step s = exec i s := by
  obtain ⟨hb, hr⟩ := h
  simp [step, hr, fetch_of_busy hb, decode, hp]

theorem step_pinit {s : State} (h : Running s) (hp : s.phase = .pinit) : step s = execPinit s :=
  step_phase (i := .pinit) h (by rw [hp]; rfl)

theorem step_pstart {s : State} (h : Running s) (hp : s.phase = .pstart) : step s = execWstart s :=
  step_phase (i := .wstart) h (by rw [hp]; rfl)

theorem step_pshift {s : State} (h : Running s) (hp : s.phase = .pshift) : step s = execWshift s :=
  step_phase (i := .wshift) h (by rw [hp]; rfl)

theorem step_pack {s : State} (h : Running s) (hp : s.phase = .pack) : step s = execWack s :=
  step_phase (i := .wack) h (by rw [hp]; rfl)

theorem step_pstop {s : State} (h : Running s) (hp : s.phase = .pstop) : step s = execWstop s :=
  step_phase (i := .wstop) h (by rw [hp]; rfl)

/-- Everything a step that answers a next state can have done. -/
theorem step_cases {s t : State} (h : step s = .next t) :
    (s.resetIn = true ∧ t = assertReset s) ∨
    (s.resetIn = false ∧ fetch s = none ∧ t = s) ∨
    (s.resetIn = false ∧ ∃ r s' i, fetch s = some (r, s') ∧ decode r = .instr i ∧ exec i s' = .next t) := by
  unfold step at h
  split at h
  · next hr => exact .inl ⟨hr, by simpa using h.symm⟩
  · next hr =>
    have hr : s.resetIn = false := by simpa using hr
    split at h
    · next hf => exact .inr (.inl ⟨hr, hf, by simpa using h.symm⟩)
    · next r s' hf =>
      split at h
      · next i hi => exact .inr (.inr ⟨hr, r, s', i, hf, hi, h⟩)
      · next e _ => cases e <;> cases h

/-! ### What a fetched word can be -/

/-- Everything a fetch that finds a word can have done. -/
theorem fetch_cases {s s' : State} {r : RawWord} (h : fetch s = some (r, s')) :
    (s.busy = true ∧ s' = s ∧ r = .phase s.phase.code) ∨
    (s.busy = false ∧ s.direct = none ∧
      ∃ w rest, s.hostReqs = w :: rest ∧ r = .req w ∧ s' = { s with hostReqs := rest }) ∨
    (s.busy = false ∧ ∃ d, s.direct = some d ∧ r = d.raw ∧ s' = { s with direct := none }) := by
  unfold fetch at h
  cases hb : s.busy <;> simp [hb] at h
  · cases hd : s.direct with
    | none =>
      cases hq : s.hostReqs with
      | nil => simp [hd, hq] at h
      | cons w rest =>
        simp [hd, hq] at h
        exact .inr (.inl ⟨rfl, rfl, w, rest, rfl, h.1.symm, h.2.symm⟩)
    | some d =>
      simp [hd] at h
      exact .inr (.inr ⟨rfl, d, rfl, h.1.symm, h.2.symm⟩)
  · exact .inl ⟨rfl, h.2.symm, h.1.symm⟩

theorem format_of_decodePhase {p : BitVec 3} {i : Instr} (h : decodePhase p = .instr i) :
    i.format = .phase := by
  unfold decodePhase at h
  split at h <;> first | (cases h; rfl) | cases h

theorem format_of_decodeWire {b : Byte} {i : Instr} (h : decodeWire b = .instr i) : i.format = .wire := by
  unfold decodeWire at h
  split_ifs at h <;> cases h <;> rfl

theorem format_of_decodeReq (w : ReqWord) : (decodeReq w).format = .req := by
  unfold decodeReq
  split <;> rfl

/-- The kinds of a step that answers a next state, one constructor each. -/
inductive StepKind (s t : State) : Prop
  | reset (hr : s.resetIn = true) (ht : t = assertReset s)
  | wait (hr : s.resetIn = false) (hb : s.busy = false) (ht : t = s)
  | phase (hr : s.resetIn = false) (hb : s.busy = true) (i : Instr) (hi : i.format = .phase)
      (hd : decodePhase s.phase.code = .instr i) (he : exec i s = .next t)
  | request (hr : s.resetIn = false) (hb : s.busy = false) (hn : s.direct = none) (w : ReqWord)
      (rest : List ReqWord) (hq : s.hostReqs = w :: rest)
      (he : exec (decodeReq w) { s with hostReqs := rest } = .next t)
  | wire (hr : s.resetIn = false) (hb : s.busy = false) (i : Instr) (hi : i.format = .wire)
      (he : exec i { s with direct := none } = .next t)
  | lookup (hr : s.resetIn = false) (hb : s.busy = false) (c : Byte)
      (he : exec (.encode c) { s with direct := none } = .next t)

theorem stepKind {s t : State} (h : step s = .next t) : StepKind s t := by
  rcases step_cases h with ⟨hr, rfl⟩ | ⟨hr, hf, rfl⟩ | ⟨hr, r, s', i, hf, hd, he⟩
  · exact .reset hr rfl
  · refine .wait hr ?_ rfl
    cases hb : t.busy
    · rfl
    · rw [fetch_of_busy hb] at hf; cases hf
  · rcases fetch_cases hf with ⟨hb, rfl, rfl⟩ | ⟨hb, hn, w, rest, hq, rfl, rfl⟩ | ⟨hb, d, _, rfl, rfl⟩
    · exact .phase hr hb i (format_of_decodePhase hd) hd he
    · simp [decode] at hd
      subst hd
      exact .request hr hb hn w rest hq he
    · cases d <;> simp [decode, DirectWord.raw] at hd
      · exact .wire hr hb i (format_of_decodeWire hd) he
      · subst hd
        exact .lookup hr hb _ he

end Sys2Proof.Machine
end

