-- ==== Sys2Proof/Machine/Written.lean ====
section
/-! DEFINITION. Machine/Written.lean: the written form of a request (30_encoding.md R89). -/

namespace Sys2Proof.Machine

/-- An operand as a decimal number (R89). -/
def decimal (n : Nat) : String := toString n

/-- A text of character codes, each standing for its 8-bit code (R89). -/
def charsOf (codes : List Byte) : String := String.ofList (codes.map fun c => Char.ofNat c.toNat)

/-- The written form; the other rows of the table have none (R89). -/
def written : Instr → Option String
  | .init cp dp fs =>
    some ("INIT " ++ decimal cp.toNat ++ ", " ++ decimal dp.toNat ++ ", " ++ decimal fs.toNat)
  | .bright level => some ("BRIGHT " ++ decimal level.toNat)
  | .digits t0 t1 t2 t3 t4 => some ("DIGITS \"" ++ charsOf [t0, t1, t2, t3, t4] ++ "\"")
  | .int value => some ("INT " ++ decimal value.toNat)
  | .colon enabled => some ("COLON " ++ decimal enabled.toNat)
  | .reserved5 => none
  | .reserved6 => none
  | .reserved7 => none
  | .cmdData => none
  | .cmdAddr => none
  | .cmdCtrlOff => none
  | .cmdCtrlOn _ => none
  | .pinit => none
  | .wstart => none
  | .wshift => none
  | .wack => none
  | .wstop => none
  | .encode _ => none

end Sys2Proof.Machine
end

