-- ==== Sys2Proof/Tests/Slice0.lean ====
section
/-! SUPPORT. Tests/Slice0.lean: named tests against 95_test_vectors.md and the tables of the spec, each about
one word or one step, and for every statement with hypotheses a witness that they can be met. -/

namespace Sys2Proof.Tests

open Sys2Proof Sys2Proof.Machine

/-! ### Helpers -/

/-- The outcome is a next state of which `p` holds. -/
def nextWith (o : Result) (p : State → Bool) : Bool :=
  match o with
  | .next t => p t
  | .fault _ => false
  | .refused _ => false

/-- The state after `INIT 2, 3, 0` from reset (V66), as far as the later tests need it. -/
def ready : State :=
  { State.reset with
    lifecycle := .initialized, clockPin := 2, dataPin := 3
    trace := [.cfg 2, .cfg 3, .w 2 false, .w 3 false] }

/-- `s` with the requests `ws` still to be presented. -/
def offering (ws : List ReqWord) (s : State) : State := { s with hostReqs := ws }

/-- `ready` in the middle of a show frame, at position (`p`, `k`). -/
def sending (p : Phase) (k : BitVec 3) : State :=
  { ready with
    busy := true, txBuf := ⟨0x40, 0xC0, 0x06, 0xDB, 0x4F, 0x66⟩, txLen := 6, phase := p, step := k }

/-- The first bit of the first byte, step `k`. -/
def shifting (k : BitVec 3) : State := { sending .pshift k with shreg := 0x40 }

/-- The acknowledgement of the byte at index `i`, step `k`. -/
def acking (i : BitVec 3) (k : BitVec 3) : State :=
  { sending .pack k with txIdx := i, bitCnt := 8 }

/-- The stop of the frame, step `k`. -/
def stopping (k : BitVec 3) : State := { sending .pstop k with txIdx := 6, bitCnt := 8 }

/-- The pin set-up of `INIT 2, 3, 0`, step `k`. -/
def settingUp (k : BitVec 3) : State :=
  { State.reset with busy := true, phase := .pinit, step := k, clockPin := 2, dataPin := 3 }

/-- The state after V60, a `BRIGHT` before `INIT`: idle, uninitialised, status `MISUSE`. -/
def misused : State := { State.reset with status := .misuse }

/-- The same state with `FRAME_MODE = legacy3`. -/
def legacy (s : State) : State := { s with params := { s.params with frameMode := .legacy3 } }

/-! ### Ill-formed words, one for each check of RawWord.wellFormed -/

theorem test_wellFormed_wire :
    (RawWord.wire 0x41#8).wellFormed = false ∧ (RawWord.wire 0xC1#8).wellFormed = false ∧
    (RawWord.wire 0x81#8).wellFormed = false ∧ (RawWord.wire 0x87#8).wellFormed = false ∧
    (RawWord.wire 0x90#8).wellFormed = false ∧ (RawWord.wire 0x88#8).wellFormed = true ∧
    (RawWord.wire 0x8F#8).wellFormed = true ∧ (RawWord.wire 0x80#8).wellFormed = true := by decide

theorem test_wellFormed_phase :
    (RawWord.phase 0#3).wellFormed = false ∧ (RawWord.phase 6#3).wellFormed = false ∧
    (RawWord.phase 7#3).wellFormed = false ∧ (RawWord.phase 1#3).wellFormed = true ∧
    (RawWord.phase 5#3).wellFormed = true := by decide

theorem test_wellFormed_others :
    (RawWord.req 0x7FFFFFFFFFF#43).wellFormed = true ∧ (RawWord.lookup 0xFF#8).wellFormed = true := by decide

/-! ### Decoding: words written out from 30_encoding.md and 95_test_vectors.md -/

/-- V66, V68, V71: `INIT`. -/
theorem test_decode_init :
    decode (.req 0x00000000302#43) = .instr (.init 2 3 0) ∧
    decode (.req 0x00000FF0504#43) = .instr (.init 4 5 255) ∧
    decode (.req 0x0ABCD000302#43) = .instr (.init 2 3 0) := by decide

/-- V17, V60: `BRIGHT`. -/
theorem test_decode_bright :
    decode (.req 0x10000000003#43) = .instr (.bright 3) ∧
    decode (.req 0x1FFFFFFFF03#43) = .instr (.bright 3) := by decide

/-- V30, V34: `DIGITS`, the first character in the lowest byte. -/
theorem test_decode_digits :
    decode (.req 0x234333A3231#43) = .instr (.digits 0x31 0x32 0x3A 0x33 0x34) ∧
    decode (.req 0x2313A3A3A3A#43) = .instr (.digits 0x3A 0x3A 0x3A 0x3A 0x31) := by decide

/-- V46, V48: `INT`. -/
theorem test_decode_int :
    decode (.req 0x30000003039#43) = .instr (.int 12345) ∧
    decode (.req 0x3000000FFFF#43) = .instr (.int 65535) := by decide

/-- V51, V56: `COLON`. -/
theorem test_decode_colon :
    decode (.req 0x40000000001#43) = .instr (.colon 1) ∧
    decode (.req 0x4FFFFFFFFFE#43) = .instr (.colon 0) := by decide

/-- V64: the reserved opcodes. -/
theorem test_decode_reserved :
    decode (.req 0x50000000000#43) = .instr .reserved5 ∧ decode (.req 0x60000000000#43) = .instr .reserved6 ∧
    decode (.req 0x70000000000#43) = .instr .reserved7 := by decide

/-- R80 to R82: the command bytes, and the bytes "never" emitted. -/
theorem test_decode_wire :
    decode (.wire 0x40#8) = .instr .cmdData ∧ decode (.wire 0xC0#8) = .instr .cmdAddr ∧
    decode (.wire 0x80#8) = .instr .cmdCtrlOff ∧ decode (.wire 0x88#8) = .instr (.cmdCtrlOn 0) ∧
    decode (.wire 0x8F#8) = .instr (.cmdCtrlOn 7) ∧
    decode (.wire 0x81#8) = .rejected (.notACommand 0x81#8) ∧
    decode (.wire 0x87#8) = .rejected (.notACommand 0x87#8) := by decide

/-- R34: the phase codes. -/
theorem test_decode_phase :
    decode (.phase 0b001#3) = .instr .pinit ∧ decode (.phase 0b010#3) = .instr .wstart ∧
    decode (.phase 0b011#3) = .instr .wshift ∧ decode (.phase 0b100#3) = .instr .wack ∧
    decode (.phase 0b101#3) = .instr .wstop ∧
    decode (.phase 0b000#3) = .rejected (.notAProcedure 0#3) ∧
    decode (.phase 0b110#3) = .rejected (.notAProcedure 6#3) ∧
    decode (.phase 0b111#3) = .rejected (.notAProcedure 7#3) := by decide

/-- R100: the look-up's input is the character code. -/
theorem test_decode_lookup : decode (.lookup 0x37#8) = .instr (.encode 0x37) := by decide

/-- R89: written forms, the examples of the rule's table. -/
theorem test_written :
    written (.init 2 3 0) = some "INIT 2, 3, 0" ∧ written (.digits 0x31 0x32 0x3A 0x33 0x34) = some "DIGITS \"12:34\"" :=
  ⟨rfl, by decide +kernel⟩

/-! ### The host's numbering of the table's rows (log 8) -/

theorem test_tableWords_req :
    decodeTableWord 48 0x00000000302 = some (.init 2 3 0) ∧ decodeTableWord 43 0x10000000003 = some (.bright 3) ∧
    decodeTableWord 48 0x70000000000 = some .reserved7 ∧ decodeTableWord 48 0x80000000000 = none := by decide

theorem test_tableWords_small :
    decodeTableWord 8 0x40 = some .cmdData ∧ decodeTableWord 8 0xC0 = some .cmdAddr ∧
    decodeTableWord 8 0x80 = some .cmdCtrlOff ∧ decodeTableWord 8 0x8A = some (.cmdCtrlOn 2) ∧
    decodeTableWord 8 1 = some .pinit ∧ decodeTableWord 8 5 = some .wstop ∧ decodeTableWord 3 4 = some .wack ∧
    decodeTableWord 3 7 = none ∧ decodeTableWord 8 0x37 = some (.encode 0x37) ∧
    decodeTableWord 8 0 = some (.encode 0) := by decide

/-- Each row's word, placed after reset, is what the next step runs: a request, a phase row, a look-up,
and a command byte, which is misuse before `INIT`. -/
theorem test_withFetchWord :
    nextWith (step (State.reset.withFetchWord 48 0x00000000302)) (fun t => t.phase = .pinit && t.busy) = true ∧
    nextWith (step (State.reset.withFetchWord 48 0x50000000000)) (fun t => t.status = .illegal) = true ∧
    nextWith (step (State.reset.withFetchWord 8 3)) (fun t => t.trace = [.w 0 false] && t.step = 1) = true ∧
    nextWith (step (State.reset.withFetchWord 8 0x37)) (fun t => t.lookupOut = 0x07) = true ∧
    nextWith (step (State.reset.withFetchWord 8 0x40)) (fun t => t.status = .misuse) = true := by decide

/-! ### Reset -/

/-- R6, R7: the default parameters of the machine after reset. -/
theorem test_reset_params :
    State.reset.params = ⟨0, [⟨0x30, [0x3F, 0x06, 0x5B, 0x4F, 0x66, 0x6D, 0x7D, 0x07, 0x7F, 0x6F]⟩], .single⟩ := by
  decide

/-- R202: a reset asserted in the middle of a frame. -/
theorem test_reset_inFlight :
    nextWith (step { shifting 2 with resetIn := true }) (fun t =>
      !t.busy && t.phase = .idle && t.lifecycle = .uninitialized && t.trace = [] && !t.resetIn) = true := by decide

/-! ### The look-up and the operand computations -/

/-- V6, V7, V8: FONT_DEC at and around its ends. -/
theorem test_encode_fontDec :
    encodeChar fontDec 0x30 = 0x3F ∧ encodeChar fontDec 0x37 = 0x07 ∧ encodeChar fontDec 0x39 = 0x6F ∧
    encodeChar fontDec 0x2F = 0x00 ∧ encodeChar fontDec 0x3A = 0x00 ∧ encodeChar fontDec 0xFF = 0x00 := by decide

/-- V10: a range that passes 255 does not wrap; V5: an empty range. -/
theorem test_encode_edges :
    encodeChar ⟨0xFA, [1, 2, 3, 4, 5, 6, 7, 8, 9, 10]⟩ 0xF9 = 0x00 ∧
    encodeChar ⟨0xFA, [1, 2, 3, 4, 5, 6, 7, 8, 9, 10]⟩ 0xFA = 0x01 ∧
    encodeChar ⟨0xFA, [1, 2, 3, 4, 5, 6, 7, 8, 9, 10]⟩ 0xFF = 0x06 ∧
    encodeChar ⟨0xFA, [1, 2, 3, 4, 5, 6, 7, 8, 9, 10]⟩ 0x00 = 0x00 ∧
    encodeChar ⟨0x30, []⟩ 0x30 = 0x00 := by decide

/-- V11 to V16: the control byte of a level. -/
theorem test_ctrlByte :
    ctrlByte (clampLevel 0) = 0x80 ∧ ctrlByte (clampLevel 1) = 0x88 ∧ ctrlByte (clampLevel 7) = 0x8E ∧
    ctrlByte (clampLevel 8) = 0x8F ∧ ctrlByte (clampLevel 9) = 0x8F ∧ ctrlByte (clampLevel 255) = 0x8F := by decide

/-- V22: the data levels of 0x8A, first bit sent first. -/
theorem test_wshift_levels :
    (wshiftEvents 2 3 0 0x8A).filter (fun e => e matches .w 3 _) =
      [.w 3 false, .w 3 true, .w 3 false, .w 3 true, .w 3 false, .w 3 false, .w 3 false, .w 3 true] := by decide

/-- V20, V21, V23: event counts, and the empty frame. -/
theorem test_wframe :
    (wframeEvents 2 3 0 [0x80]).length = 56 ∧
    wframeEvents 2 3 0 [] = [.w 3 true, .w 2 true, .s 0, .w 3 false,
      .w 2 false, .s 0, .w 3 false, .s 0, .w 2 true, .s 0, .w 3 true] := by decide

/-- V25: the least duration of a brightness frame with `CLOCK_DELAY = 5`. -/
theorem test_duration : minDuration (wframeEvents 2 3 5 [0x88]) = 110 := by decide

/-- V24: clock rises and data changes of a frame, from lines low. -/
theorem test_waveform :
    clockRises 2 3 ⟨false, false⟩ (wframeEvents 2 3 0 [0x40, 0xDB]) = 2 + 9 * 2 ∧
    dataChangesWhileHigh 2 3 ⟨false, false⟩ (wframeEvents 2 3 0 [0x40, 0xDB]) = [false, true] := by decide

/-! ### One step of each request -/

/-- V66, V65: `INIT` stores pins and font; a missing font stores nothing. -/
theorem test_init :
    nextWith (exec (.init 2 3 0) State.reset) (fun t =>
      t.clockPin = 2 && t.dataPin = 3 && t.busy && t.phase = .pinit && t.trace = []) = true ∧
    nextWith (exec (.init 2 3 1) State.reset) (fun t =>
      t.clockPin = 0 && t.status = .illegal && !t.busy) = true := by decide

/-- V67, V68: a second `INIT` is misuse, before its font is looked at. -/
theorem test_init_twice :
    nextWith (exec (.init 4 5 0) ready) (fun t => t.clockPin = 2 && t.status = .misuse) = true ∧
    nextWith (exec (.init 4 5 255) ready) (fun t => t.status = .misuse) = true := by decide

/-- V13, V60: `BRIGHT 3` loads 0x8A; before `INIT` it is misuse. -/
theorem test_bright :
    nextWith (exec (.bright 3) ready) (fun t =>
      t.txBuf.e0 = 0x8A && t.txLen = 1 && t.phase = .pstart && t.seg = ⟨0, 0, 0, 0⟩) = true ∧
    nextWith (exec (.bright 3) State.reset) (fun t => t.status = .misuse && !t.busy) = true := by decide

/-- V30, V35: `DIGITS`. -/
theorem test_digits :
    nextWith (exec (.digits 0x31 0x32 0x3A 0x33 0x34) ready) (fun t =>
      t.seg = ⟨0x06, 0xDB, 0x4F, 0x66⟩ && t.txBuf = ⟨0x40, 0xC0, 0x06, 0xDB, 0x4F, 0x66⟩ && t.txLen = 6) = true ∧
    nextWith (exec (.digits 0x38 0x3A 0x38 0x38 0x38) ready) (fun t => t.seg = ⟨0x7F, 0x00, 0x7F, 0x7F⟩) = true := by
  decide

/-- V46, V41: `INT`. -/
theorem test_int :
    nextWith (exec (.int 12345) ready) (fun t => t.seg = ⟨0x5B, 0x4F, 0x66, 0x6D⟩ && t.txLen = 6) = true ∧
    nextWith (exec (.int 7) ready) (fun t => t.seg = ⟨0x3F, 0x3F, 0x3F, 0x07⟩) = true := by decide

/-- V50, V53: `COLON`. -/
theorem test_colon :
    nextWith (exec (.colon 0) { ready with seg := ⟨0x06, 0xDB, 0x4F, 0x66⟩ })
      (fun t => t.seg = ⟨0x06, 0x5B, 0x4F, 0x66⟩) = true ∧
    nextWith (exec (.colon 1) ready) (fun t => t.seg = ⟨0x00, 0x80, 0x00, 0x00⟩) = true := by decide

/-- V64, V69: the reserved opcodes in both lifecycle states. -/
theorem test_reserved :
    nextWith (exec .reserved5 State.reset) (fun t => t = { State.reset with status := .illegal }) = true ∧
    nextWith (exec .reserved6 ready) (fun t => t = { ready with status := .illegal }) = true ∧
    nextWith (exec .reserved7 ready) (fun t => t.status = .illegal && !t.busy) = true := by decide

/-- V80: in `legacy3` a show starts with the frame of the data command alone. -/
theorem test_digits_legacy3 :
    nextWith (exec (.digits 0x31 0x32 0x3A 0x33 0x34) (legacy ready)) (fun t =>
      t.seg = ⟨0x06, 0xDB, 0x4F, 0x66⟩ && t.txBuf.e0 = 0x40 && t.txLen = 1 && t.further = .addrFrame) = true := by
  decide

/-- R72: while busy no request is accepted. -/
theorem test_busy :
    nextWith (exec (.bright 0) (shifting 1)) (fun t => t = shifting 1) = true := by decide

/-! ### One step of each phase row, look-up and command -/

/-- R125: first and last step of the pin set-up. -/
theorem test_pinit :
    nextWith (exec .pinit (settingUp 0)) (fun t => t.trace = [.cfg 2] && t.step = 1) = true ∧
    nextWith (exec .pinit (settingUp 3)) (fun t =>
      t.trace = [.w 3 false] && t.lifecycle = .initialized && !t.busy && t.status = .ok) = true := by decide

/-- V26: last step of the start, with a byte and with the empty frame. -/
theorem test_wstart :
    nextWith (exec .wstart { sending .pstart 3 with trace := [] }) (fun t =>
      t.trace = [.w 3 false] && t.phase = .pshift && t.shreg = 0x40 && t.bitCnt = 0) = true ∧
    nextWith (exec .wstart { sending .pstart 3 with txLen := 0 }) (fun t => t.phase = .pstop && t.step = 0) = true := by
  decide

/-- V26: the data level is bit 0 of `shreg`; the last step of a bit shifts right. -/
theorem test_wshift :
    nextWith (exec .wshift { shifting 1 with trace := [], shreg := 0x81 }) (fun t => t.trace = [.w 3 true]) = true ∧
    nextWith (exec .wshift { shifting 4 with shreg := 0x80 }) (fun t =>
      t.shreg = 0x40 && t.bitCnt = 1 && t.phase = .pshift) = true := by decide

/-- V26: after the last byte the stop follows, after another byte the next byte. -/
theorem test_wack :
    nextWith (exec .wack (acking 5 4)) (fun t => t.phase = .pstop && t.txIdx = 6 && t.ackAcc) = true ∧
    nextWith (exec .wack (acking 0 4)) (fun t => t.phase = .pshift && t.shreg = 0xC0 && t.bitCnt = 0) = true := by
  decide

/-- V26, V80: the end of the last frame, and the next frame of `legacy3`. -/
theorem test_wstop :
    nextWith (exec .wstop (stopping 6)) (fun t => t.phase = .idle && !t.busy && t.status = .ok) = true ∧
    nextWith (exec .wstop { legacy (stopping 6) with further := .addrFrame }) (fun t =>
      t.phase = .pstart && t.txBuf.e0 = 0xC0 && t.txLen = 1 && t.busy && t.further = .segFrame) = true := by decide

/-- V6, V9: the look-up called directly. -/
theorem test_encode :
    nextWith (exec (.encode 0x35) ready) (fun t => t.lookupOut = 0x6D) = true ∧
    nextWith (exec (.encode 0x41) ready) (fun t => t = { ready with lookupOut := 0x00 }) = true := by decide

/-- R80 to R82, R114: a command byte called directly is the byte of a frame of its own. -/
theorem test_commands :
    nextWith (exec .cmdData ready) (fun t => t.txBuf.e0 = 0x40 && t.txLen = 1 && t.phase = .pstart) = true ∧
    nextWith (exec .cmdAddr ready) (fun t => t.txBuf.e0 = 0xC0 && t.busy) = true ∧
    nextWith (exec .cmdCtrlOff ready) (fun t => t.txBuf.e0 = 0x80 && t.busy) = true ∧
    nextWith (exec (.cmdCtrlOn 7) ready) (fun t => t.txBuf.e0 = 0x8F && t.busy) = true := by decide

/-! ### Witnesses: the invariant -/

theorem witness_inv_ready : ready.Inv where
  font := by decide
  ack := rfl
  status := by decide
  idle := fun _ => ⟨rfl, rfl, rfl⟩
  position := fun h => by cases h
  legacy := fun h => absurd rfl h
  pins := fun _ => ⟨by decide, by decide⟩
  configured := by simp [ready, configuredFrom]

theorem witness_inv_offering (ws : List ReqWord) : (offering ws ready).Inv :=
  { witness_inv_ready with }

theorem witness_inv_legacy : (legacy ready).Inv where
  font := by decide
  ack := rfl
  status := by decide
  idle := fun _ => ⟨rfl, rfl, rfl⟩
  position := fun h => by cases h
  legacy := fun _ => rfl
  pins := fun _ => ⟨by decide, by decide⟩
  configured := by simp [legacy, ready, configuredFrom]

theorem witness_inv_misused : misused.Inv where
  font := by decide
  ack := rfl
  status := by decide
  idle := fun _ => ⟨rfl, rfl, rfl⟩
  position := fun h => by cases h
  legacy := fun h => absurd rfl h
  pins := fun h => by cases h
  configured := trivial

theorem witness_inv_shifting : (shifting 2).Inv where
  font := by decide
  ack := rfl
  status := by decide
  idle := fun h => by cases h
  position := fun _ => ⟨⟨rfl, by decide⟩, by decide, by decide, by decide, by decide⟩
  legacy := fun h => absurd rfl h
  pins := fun _ => ⟨by decide, by decide⟩
  configured := by simp [shifting, sending, ready, configuredFrom]

/-- The empty frame, in `legacy3`, with a further frame to come. -/
theorem witness_inv_emptyFrame :
    ({ legacy (sending .pstart 0) with txLen := 0, further := .segFrame } : State).Inv where
  font := by decide
  ack := rfl
  status := by decide
  idle := fun h => by cases h
  position := fun _ => ⟨⟨rfl, by decide⟩, by decide, rfl⟩
  legacy := fun _ => rfl
  pins := fun _ => ⟨by decide, by decide⟩
  configured := by simp [legacy, sending, ready, configuredFrom]

theorem witness_inv_settingUp : (settingUp 0).Inv where
  font := by decide
  ack := rfl
  status := by decide
  idle := fun h => by cases h
  position := fun _ => ⟨rfl, by decide, rfl, fun h => absurd h (by decide), fun h => absurd h (by decide)⟩
  legacy := fun h => absurd rfl h
  pins := fun h => by cases h
  configured := trivial

/-! ### Witnesses: one for each statement with hypotheses -/

theorem witness_SmallSpaceWords :
    (decode (.wire 0x8F#8) = .instr (.cmdCtrlOn 7) ∧ (RawWord.wire 0x8F#8).format ≠ .req) ∧
    (decode (.phase 5#3) = .instr .wstop ∧ (RawWord.phase 5#3).format ≠ .req) ∧
    (decode (.lookup 0xFF#8) = .instr (.encode 0xFF) ∧ (RawWord.lookup 0xFF#8).format ≠ .req) := by decide

theorem witness_RequestFields :
    (0x0FFFFFFFFFF#43).toNat / 2 ^ 40 = 0 ∧ (0x1FFFFFFFFFF#43).toNat / 2 ^ 40 = 1 ∧
    (0x2FFFFFFFFFF#43).toNat / 2 ^ 40 = 2 ∧ (0x3FFFFFFFFFF#43).toNat / 2 ^ 40 = 3 ∧
    (0x4FFFFFFFFFF#43).toNat / 2 ^ 40 = 4 ∧ (0x5FFFFFFFFFF#43).toNat / 2 ^ 40 = 5 ∧
    (0x6FFFFFFFFFF#43).toNat / 2 ^ 40 = 6 ∧ (0x7FFFFFFFFFF#43).toNat / 2 ^ 40 = 7 := by decide

theorem witness_portOpen : PortOpen ready ∧ PortOpen State.reset := ⟨⟨rfl, rfl, rfl⟩, ⟨rfl, rfl, rfl⟩⟩

/-- For one opcode of each kind, two different words that agree in the bits that are not ignored. -/
theorem witness_IgnoredOperandBits :
    0x00000000302#43 &&& meaningfulBits 0 = 0x0ABCD000302#43 &&& meaningfulBits 0 ∧
    0x10000000003#43 &&& meaningfulBits 1 = 0x1FFFFFFFF03#43 &&& meaningfulBits 1 ∧
    0x30000003039#43 &&& meaningfulBits 3 = 0x3FFFFFF3039#43 &&& meaningfulBits 3 ∧
    0x40000000000#43 &&& meaningfulBits 4 = 0x4FFFFFFFFFE#43 &&& meaningfulBits 4 ∧
    0x70000000000#43 &&& meaningfulBits 7 = 0x7FFFFFFFFFF#43 &&& meaningfulBits 7 := by decide

theorem witness_AssertedReset : ({ shifting 2 with resetIn := true } : State).resetIn = true := rfl

theorem witness_IdleBlockWaits : PortOpen ready ∧ ready.hostReqs = [] := ⟨⟨rfl, rfl, rfl⟩, rfl⟩

theorem witness_StepRuns :
    ((shifting 2).resetIn = false ∧ fetch (shifting 2) = some (.phase 0b011#3, shifting 2) ∧
      decode (.phase 0b011#3) = .instr .wshift ∧ (shifting 2).busy = true) ∧
    (ready.busy = false ∧ (offering [0x10000000003#43] ready).direct = none ∧
      (offering [0x10000000003#43] ready).hostReqs = [0x10000000003#43]) ∧
    ({ ready with direct := some (.wire 0x40#8) } : State).direct = some (.wire 0x40#8) ∧
    ({ ready with direct := some (.lookup 0x30#8) } : State).direct = some (.lookup 0x30#8) :=
  ⟨⟨rfl, rfl, rfl, rfl⟩, ⟨rfl, rfl, rfl⟩, rfl, rfl⟩

/-- The precedence of log 5: with a direct call and a request both pending on an idle block, the direct call is
fetched and the request stays; while busy neither is. -/
theorem witness_StepRuns_bothPending :
    fetch { offering [0x10000000003#43] ready with direct := some (.wire 0x40#8) } =
      some (.wire 0x40#8, offering [0x10000000003#43] ready) ∧
    fetch { offering [0x10000000003#43] ready with direct := some (.lookup 0x30#8) } =
      some (.lookup 0x30#8, offering [0x10000000003#43] ready) ∧
    fetch { offering [0x10000000003#43] (shifting 2) with direct := some (.wire 0x40#8) } =
      some (.phase 0b011#3, { offering [0x10000000003#43] (shifting 2) with direct := some (.wire 0x40#8) }) :=
  ⟨rfl, rfl, rfl⟩

theorem witness_BusyBlock :
    (Instr.bright 3).format = .req ∧ (shifting 2).busy = true ∧ (shifting 2).resetIn = false ∧
    nextWith (step (shifting 2)) (fun _ => true) = true := by decide

theorem witness_InitAcceptance :
    State.reset.busy = false ∧ State.reset.lifecycle = .uninitialized ∧ (0 : Byte).toNat < State.reset.params.nFonts := by
  decide

/-- For BrightAcceptanceLoadsTheControlByte, DigitsAcceptanceRendersTheText, IntAcceptanceRendersTheDigits,
ColonAcceptanceForcesTheColonBit, EncodeReturnsThePattern and WireCommandsStartTheirFrame. -/
theorem witness_contentAcceptance :
    ready.busy = false ∧ ready.lifecycle = .initialized ∧ ready.params.fonts[ready.fontSel.toNat]? = some fontDec := by
  decide

theorem witness_ReservedOpcodes :
    (ready.busy = false ∧ State.reset.busy = false) ∧
    (PortOpen (offering [0x50000000000#43] ready) ∧ 5 ≤ (reqOpcode 0x50000000000#43).toNat) ∧
    (PortOpen (offering [0x7FFFFFFFFFF#43] State.reset) ∧ 5 ≤ (reqOpcode 0x7FFFFFFFFFF#43).toNat) :=
  ⟨⟨rfl, rfl⟩, ⟨⟨rfl, rfl, rfl⟩, by decide⟩, ⟨⟨rfl, rfl, rfl⟩, by decide⟩⟩

theorem witness_WrongLifecycle :
    (State.reset.busy = false ∧ State.reset.lifecycle = .uninitialized) ∧
    (ready.busy = false ∧ ready.lifecycle = .initialized) := by decide

theorem witness_InitWithAMissingFont :
    State.reset.busy = false ∧ State.reset.lifecycle = .uninitialized ∧
    State.reset.params.nFonts ≤ (1 : Byte).toNat ∧ State.reset.params.nFonts ≤ (255 : Byte).toNat ∧
    (0 : Byte).toNat < State.reset.params.nFonts := by decide

theorem witness_ChecksAreMadeInOrder :
    ((Instr.init 4 5 255).format = .req ∧ ready.busy = false ∧ ready.fontSel.toNat < ready.params.nFonts) ∧
    firstError (.init 4 5 255) ready = some .misuse ∧ firstError .reserved7 ready = some .illegal ∧
    firstError (.init 2 3 1) State.reset = some .illegal ∧ firstError (.init 2 3 0) State.reset = none ∧
    firstError (.int 7) State.reset = some .misuse ∧ firstError (.int 7) ready = none := by decide

theorem witness_Aliasing :
    (8 < (9 : Byte).toNat ∧ 8 < (255 : Byte).toNat) ∧ ((0x20 : Byte) ≠ 0x3A#8 ∧ (0x30 : Byte) ≠ 0x3A#8) ∧
    ready.params.fonts[ready.fontSel.toNat]? = some fontDec ∧
    ¬ (fontDec.baseChar.toNat ≤ (0x2F : Byte).toNat ∧ (0x2F : Byte).toNat < fontDec.baseChar.toNat + fontDec.symbolCount) ∧
    ¬ (fontDec.baseChar.toNat ≤ (0x3A : Byte).toNat ∧
      (0x3A : Byte).toNat < fontDec.baseChar.toNat + fontDec.symbolCount) := by decide

theorem witness_IntEqualsDigits : (0x20 : Byte) ≠ 0x3A#8 := by decide

theorem witness_FontLookup :
    (9 < fontDec.patterns.length ∧ (0x39 : Byte).toNat = fontDec.baseChar.toNat + 9) ∧
    (0x2F : Byte).toNat < fontDec.baseChar.toNat ∧
    fontDec.baseChar.toNat + fontDec.symbolCount ≤ (0x3A : Byte).toNat := by decide

theorem witness_PstartSteps :
    ((sending .pstart 0).busy = true ∧ (sending .pstart 0).phase = .pstart ∧ (sending .pstart 0).step = 0) ∧
    (sending .pstart 1).step = 1 ∧ (sending .pstart 2).step = 2 ∧
    (({ sending .pstart 3 with txLen := 0 } : State).step = 3 ∧ ({ sending .pstart 3 with txLen := 0 } : State).txLen = 0) ∧
    ((sending .pstart 3).step = 3 ∧ (sending .pstart 3).txLen ≠ 0) := by decide

theorem witness_PshiftSteps :
    ((shifting 0).busy = true ∧ (shifting 0).phase = .pshift ∧ (shifting 0).step = 0) ∧
    (shifting 1).step = 1 ∧ (shifting 2).step = 2 ∧ (shifting 3).step = 3 ∧
    ((shifting 4).step = 4 ∧ (shifting 4).bitCnt + 1 ≠ 8) ∧
    (({ shifting 4 with bitCnt := 7 } : State).step = 4 ∧ ({ shifting 4 with bitCnt := 7 } : State).bitCnt + 1 = 8) := by
  decide

theorem witness_PackSteps :
    ((acking 0 0).busy = true ∧ (acking 0 0).phase = .pack ∧ (acking 0 0).step = 0) ∧
    (acking 0 1).step = 1 ∧ (acking 0 2).step = 2 ∧ (acking 0 3).step = 3 ∧
    ((acking 5 4).step = 4 ∧ (acking 5 4).txIdx + 1 = (acking 5 4).txLen) ∧
    ((acking 4 4).txIdx + 1 ≠ (acking 4 4).txLen ∧
      (acking 4 4).txBuf.toList[((acking 4 4).txIdx + 1).toNat]? = some 0x66#8) := by decide

theorem witness_PstopSteps :
    ((stopping 0).busy = true ∧ (stopping 0).phase = .pstop ∧ (stopping 0).step = 0) ∧
    (stopping 1).step = 1 ∧ (stopping 2).step = 2 ∧ (stopping 3).step = 3 ∧ (stopping 4).step = 4 ∧
    (stopping 5).step = 5 ∧ ((stopping 6).step = 6 ∧ (stopping 6).further = .nothing) ∧
    ({ legacy (stopping 6) with further := .addrFrame } : State).further = .addrFrame ∧
    ({ legacy (stopping 6) with further := .segFrame } : State).further = .segFrame := by decide

theorem witness_PinitSteps :
    ((settingUp 0).busy = true ∧ (settingUp 0).phase = .pinit ∧ (settingUp 0).step = 0) ∧
    (settingUp 1).step = 1 ∧ (settingUp 2).step = 2 ∧ (settingUp 3).step = 3 ∧
    nextWith (exec (.init 2 3 0) State.reset) (fun _ => true) = true := by decide

/-- For StartRunEmitsTheStartCondition (both clauses), ShiftRunSendsTheByteLowBitFirst, AckRunPulsesTheClock
(both clauses) and StopRunEmitsTheStopCondition. -/
theorem witness_procedureRuns :
    (Running (sending .pstart 0) ∧ (sending .pstart 0).txLen ≠ 0) ∧
    (Running { sending .pstart 0 with txLen := 0 } ∧ ({ sending .pstart 0 with txLen := 0 } : State).txLen = 0) ∧
    Running (shifting 0) ∧ (shifting 0).bitCnt = 0 ∧
    Running (acking 5 0) ∧ (acking 5 0).txIdx + 1 = (acking 5 0).txLen ∧
    (acking 4 0).txBuf.toList[((acking 4 0).txIdx + 1).toNat]? = some 0x66#8 ∧
    Running (stopping 0) ∧ (stopping 0).further = .nothing :=
  ⟨⟨⟨rfl, rfl⟩, by decide⟩, ⟨⟨rfl, rfl⟩, rfl⟩, ⟨rfl, rfl⟩, rfl, ⟨rfl, rfl⟩, rfl, rfl, ⟨rfl, rfl⟩, rfl⟩

theorem witness_InitRun :
    PortOpen (offering [0x00000000302#43] State.reset) ∧
    (offering [0x00000000302#43] State.reset).lifecycle = .uninitialized ∧
    decode (.req 0x00000000302#43) = .instr (.init 2 3 0) ∧ (0 : Byte).toNat < State.reset.params.nFonts :=
  ⟨⟨rfl, rfl, rfl⟩, rfl, by decide, by decide⟩

/-- A frame of six bytes and one of none. -/
theorem witness_FrameRun :
    (Running (sending .pstart 0) ∧ (sending .pstart 0).txIdx = 0 ∧ (sending .pstart 0).txLen.toNat ≤ 6 ∧
      (sending .pstart 0).ackAcc = true ∧ (sending .pstart 0).further = .nothing) ∧
    (Running { sending .pstart 0 with txLen := 0 } ∧ ({ sending .pstart 0 with txLen := 0 } : State).txLen.toNat ≤ 6) :=
  ⟨⟨⟨rfl, rfl⟩, rfl, by decide, rfl, rfl⟩, ⟨rfl, rfl⟩, by decide⟩

/-- One of the words `ws`, presented alone to `s`, meets the hypotheses. -/
def PresentedTo (s : State) (ws : List ReqWord) : Prop :=
  ∀ w ∈ ws, (offering [w] s).Inv ∧ PortOpen (offering [w] s) ∧ (offering [w] s).hostReqs = [w]

/-- Each of the five requests, a reserved opcode, and a second `INIT`, on the initialised block (V11, V30, V46,
V51, V64, V67). -/
theorem witness_RequestRun :
    PresentedTo ready [0x10000000000#43, 0x234333A3231#43, 0x30000003039#43, 0x40000000001#43,
      0x50000000000#43, 0x00000000504#43] :=
  fun _ _ => ⟨witness_inv_offering _, ⟨rfl, rfl, rfl⟩, rfl⟩

/-- `INIT`, `INIT` with a missing font, and a request before `INIT`, on an uninitialised block (V70, V65, V60). -/
theorem witness_RequestRun_uninitialized :
    PresentedTo misused [0x00000000302#43, 0x00000010302#43, 0x10000000003#43] :=
  fun _ _ => ⟨{ witness_inv_misused with }, ⟨rfl, rfl, rfl⟩, rfl⟩

/-- The three show requests and `BRIGHT` with `FRAME_MODE = legacy3` (V80). -/
theorem witness_RequestRun_legacy3 :
    PresentedTo (legacy ready) [0x234333A3231#43, 0x30000003039#43, 0x40000000001#43, 0x10000000000#43] :=
  fun _ _ => ⟨{ witness_inv_legacy with }, ⟨rfl, rfl, rfl⟩, rfl⟩

theorem witness_EveryRun :
    (offering [0x10000000008#43, 0x234333A3231#43] ready).Inv ∧
    PortOpen (offering [0x10000000008#43, 0x234333A3231#43] ready) :=
  ⟨witness_inv_offering _, ⟨rfl, rfl, rfl⟩⟩

theorem witness_EventCounts :
    (ready.lifecycle = .initialized ∧ ready.fontSel.toNat < ready.params.nFonts) ∧
    ((legacy ready).lifecycle = .initialized ∧ (legacy ready).fontSel.toNat < (legacy ready).params.nFonts) := by decide

theorem witness_ColonRoundTrip :
    ((offering [0x40000000001#43, 0x40000000000#43] ready).Inv ∧
      PortOpen (offering [0x40000000001#43, 0x40000000000#43] ready)) ∧
    ((offering [0x40000000000#43, 0x40000000001#43] ready).Inv ∧
      (offering [0x40000000000#43, 0x40000000001#43] ready).lifecycle = .initialized) :=
  ⟨⟨witness_inv_offering _, ⟨rfl, rfl, rfl⟩⟩, witness_inv_offering _, rfl⟩

theorem witness_FrameWaveform : (2 : PinId) ≠ 3 := by decide

theorem witness_ResetMeetsTheInvariant : 0 < defaultParams.nFonts := by decide

theorem witness_StepKeepsTheInvariant :
    (shifting 2).Inv ∧ nextWith (step (shifting 2)) (fun t => t.step = 3) = true :=
  ⟨witness_inv_shifting, by decide⟩

theorem witness_NoStepStops :
    ({ ready with direct := some (.wire 0x40#8) } : State).Inv ∧
    NoBadDirect { ready with direct := some (.wire 0x40#8) } :=
  ⟨{ witness_inv_ready with }, fun b h => by cases h; decide⟩

theorem witness_ExactlyOneProcedure :
    ((shifting 2).Inv ∧ (shifting 2).busy = true) ∧ (ready.busy = false ∧ Instr.wshift.format = .phase) :=
  ⟨⟨witness_inv_shifting, rfl⟩, rfl, rfl⟩

/-- For EachStepEmitsOneOfTheEventsLeft and RequestInFlightFinishes; the second clause of the former needs
the invariant alone. -/
theorem witness_RequestInFlight :
    ((shifting 2).Inv ∧ Running (shifting 2)) ∧ ((settingUp 0).Inv ∧ Running (settingUp 0)) :=
  ⟨⟨witness_inv_shifting, ⟨rfl, rfl⟩⟩, witness_inv_settingUp, ⟨rfl, rfl⟩⟩

theorem witness_OnlyResetLeavesInitialized :
    ready.lifecycle = .initialized ∧
    nextWith (step { ready with resetIn := true }) (fun t => t.lifecycle = .uninitialized) = true := by decide

theorem witness_OnlyInitEntersInitialized :
    (settingUp 3).lifecycle = .uninitialized ∧
    nextWith (step (settingUp 3)) (fun t => t.lifecycle = .initialized) = true := by decide

theorem witness_TraceOnlyGrows :
    ((shifting 2).resetIn = false ∧ (shifting 2).busy = true ∧ nextWith (step (shifting 2)) (fun _ => true) = true) ∧
    (ready.busy = false ∧ nextWith (step (offering [0x10000000003#43] ready)) (fun _ => true) = true) := by decide

/-- For TraceIsNeverRead (no reset asserted), StatusAndAckSteerNothing and ParametersNeverChange (a step that
answers a next state: while busy, idle, and with reset asserted). -/
theorem witness_stepAnswers :
    (shifting 2).resetIn = false ∧ nextWith (step (shifting 2)) (fun _ => true) = true ∧
    nextWith (step ready) (fun _ => true) = true ∧
    nextWith (step { shifting 2 with resetIn := true }) (fun _ => true) = true := by decide

theorem witness_OnlyShowRequests :
    (offering [0x40000000001#43] ready).resetIn = false ∧
    nextWith (step (offering [0x40000000001#43] ready)) (fun t => t.seg ≠ ready.seg) = true := by decide

theorem witness_RequestFrame :
    (Instr.int 7).format = .req ∧ nextWith (exec (.int 7) ready) (fun _ => true) = true ∧
    nextWith (exec (.init 2 3 0) State.reset) (fun _ => true) = true := by decide

theorem witness_SequencerFrame :
    Instr.wack.format = .phase ∧ nextWith (exec .wack (acking 5 4)) (fun t => t.busy) = true ∧
    nextWith (exec .wstop (stopping 6)) (fun t => !t.busy) = true := by decide

theorem witness_DirectCallFrame :
    Instr.cmdData.format = .wire ∧ nextWith (exec .cmdData ready) (fun _ => true) = true ∧
    nextWith (exec (.encode 0x35) ready) (fun _ => true) = true := by decide

end Sys2Proof.Tests
end

/-! PROOFS. The counts of a frame, the sequencer's procedures and the requests as runs, and what each kind
of instruction can do; the obligations they settle stand at the end. -/

namespace Sys2Proof.Machine

/-! ### Event counts of the procedures (R115) -/

section EventCounts
variable (c d : PinId) (t : Nat)

@[simp] theorem shiftLoop_length (n : Nat) (r : Byte) : (shiftLoop c d t n r).length = 5 * n := by
  induction n generalizing r with
  | zero => rfl
  | succ n ih => simp [shiftLoop, bitEvents, ih]; omega

@[simp] theorem shiftLoop_countP_isWrite (n : Nat) (r : Byte) :
    (shiftLoop c d t n r).countP Event.isWrite = 3 * n := by
  induction n generalizing r with
  | zero => rfl
  | succ n ih => simp [shiftLoop, bitEvents, List.countP_cons, Event.isWrite, ih]; omega

@[simp] theorem shiftLoop_countP_isSleep (n : Nat) (r : Byte) :
    (shiftLoop c d t n r).countP Event.isSleep = 2 * n := by
  induction n generalizing r with
  | zero => rfl
  | succ n ih => simp [shiftLoop, bitEvents, List.countP_cons, Event.isSleep, ih]; omega

@[simp] theorem shiftLoop_minDuration (n : Nat) (r : Byte) :
    minDuration (shiftLoop c d t n r) = 2 * n * t := by
  induction n generalizing r with
  | zero => simp [shiftLoop, minDuration]
  | succ n ih => simp [shiftLoop, bitEvents, minDuration, ih]; ring

@[simp] theorem byteEvents_length (b : Byte) : (byteEvents c d t b).length = 45 := by
  simp [byteEvents, wshiftEvents, wackEvents]

@[simp] theorem byteEvents_countP_isWrite (b : Byte) :
    (byteEvents c d t b).countP Event.isWrite = 27 := by
  simp [byteEvents, wshiftEvents, wackEvents, List.countP_cons, Event.isWrite]

@[simp] theorem byteEvents_countP_isSleep (b : Byte) :
    (byteEvents c d t b).countP Event.isSleep = 18 := by
  simp [byteEvents, wshiftEvents, wackEvents, List.countP_cons, Event.isSleep]

@[simp] theorem byteEvents_minDuration (b : Byte) : minDuration (byteEvents c d t b) = 18 * t := by
  simp [byteEvents, wshiftEvents, wackEvents, minDuration]; ring

theorem minDuration_flatMap_byteEvents (bytes : List Byte) :
    minDuration (bytes.flatMap (byteEvents c d t)) = 18 * bytes.length * t := by
  induction bytes with
  | nil => simp [minDuration]
  | cons b bytes ih => simp [ih]; ring

@[simp] theorem wframeEvents_length (bytes : List Byte) :
    (wframeEvents c d t bytes).length = 11 + 45 * bytes.length := by
  simp [wframeEvents, wstartEvents, wstopEvents, List.length_flatMap]; omega

theorem wframeEvents_countP_isWrite (bytes : List Byte) :
    (wframeEvents c d t bytes).countP Event.isWrite = 7 + 27 * bytes.length := by
  simp [wframeEvents, wstartEvents, wstopEvents, List.countP_flatMap, Function.comp_def,
    List.countP_cons, Event.isWrite]
  omega

theorem wframeEvents_countP_isSleep (bytes : List Byte) :
    (wframeEvents c d t bytes).countP Event.isSleep = 4 + 18 * bytes.length := by
  simp [wframeEvents, wstartEvents, wstopEvents, List.countP_flatMap, Function.comp_def,
    List.countP_cons, Event.isSleep]
  omega

theorem wframeEvents_minDuration (bytes : List Byte) :
    minDuration (wframeEvents c d t bytes) = (4 + 18 * bytes.length) * t := by
  simp [wframeEvents, wstartEvents, wstopEvents, minDuration, minDuration_flatMap_byteEvents]; ring

end EventCounts

/-! ### A procedure as a run (R110 to R114, R126) -/

/-- `s` with a request in flight at position (`p`, `k`) and no reset asserted. -/
def inFlight (p : Phase) (k : BitVec 3) (s : State) : State :=
  { s with busy := true, resetIn := false, phase := p, step := k }

/-- A state at a known position is of the form `inFlight p k u`, on which `step` computes: in the runs below
each `rfl` is one row of a phase's table (R121 to R125). -/
theorem exists_eq_inFlight {p : Phase} {k : BitVec 3} {s : State} (h : Running s) (hp : s.phase = p)
    (hk : s.step = k) : ∃ u, s = inFlight p k u := by
  obtain ⟨hb, hr⟩ := h
  exact ⟨s, by simp [inFlight, ← hb, ← hr, ← hp, ← hk]⟩

theorem afterBit_of_last {s : State} (h : s.bitCnt.toNat = 7) :
    afterBit s = { s with shreg := s.shreg >>> 1, bitCnt := 8, phase := .pack, step := 0 } := by
  have h7 : s.bitCnt = 7 := BitVec.eq_of_toNat_eq h
  simp [afterBit, goTo, h7]

theorem afterBit_of_more {s : State} (h : s.bitCnt.toNat < 7) :
    afterBit s =
      { s with shreg := s.shreg >>> 1, bitCnt := s.bitCnt + 1, phase := .pshift, step := 0 } := by
  have h8 : s.bitCnt + 1 ≠ 8#4 := by bv_omega
  rw [afterBit, if_neg h8]
  rfl

theorem afterStart_of_empty {s : State} (h : s.txLen = 0) :
    afterStart s = .next { s with phase := .pstop, step := 0 } := by
  rw [afterStart, if_pos h]
  rfl

theorem afterStart_of_bytes {s : State} (h : s.txLen ≠ 0) :
    afterStart s = .next { s with shreg := s.txBuf.e0, bitCnt := 0, phase := .pshift, step := 0 } := by
  rw [afterStart, if_neg h, loadShift_of_get rfl]

theorem afterAck_of_last {s : State} (h : s.txIdx = s.txLen) :
    afterAck s = .next { s with phase := .pstop, step := 0 } := by
  rw [afterAck, if_pos h]
  rfl

theorem afterAck_of_more {s : State} {b : Byte} (h : s.txIdx ≠ s.txLen)
    (hb : s.txBuf.get? s.txIdx.toNat = some b) :
    afterAck s = .next { s with shreg := b, bitCnt := 0, phase := .pshift, step := 0 } := by
  rw [afterAck, if_neg h, loadShift_of_get hb]

/-- The end of a frame is the same wherever its last event leaves the position. -/
theorem frameOver_position (b : Bool) (p : Phase) (k : BitVec 3) (s : State) :
    frameOver { s with busy := b, phase := p, step := k } = frameOver s := by
  cases h : s.further <;> simp [frameOver, h, finish, startFrame]

theorem pinit_runs {s : State} (h : Running s) (hp : s.phase = .pinit) (hk : s.step = 0) :
    Runs 4 s (finish { s with
      trace := s.trace ++ pinSetupEvents s.clockPin s.dataPin, lifecycle := .initialized }) := by
  obtain ⟨u, rfl⟩ := exists_eq_inFlight h hp hk
  refine ⟨_, rfl, _, rfl, _, rfl, _, rfl, ?_⟩
  simp [finish, setInitialized, goTo, emit, pinSetupEvents, clockWrite, dataWrite]

theorem pstart_runs {s t : State} (h : Running s) (hp : s.phase = .pstart) (hk : s.step = 0)
    (ht : afterStart { s with
      trace := s.trace ++ wstartEvents s.clockPin s.dataPin s.params.clockDelay, step := 3 } = .next t) :
    Runs 4 s t := by
  obtain ⟨u, rfl⟩ := exists_eq_inFlight h hp hk
  refine ⟨_, rfl, _, rfl, _, rfl, t, ?_, rfl⟩
  rw [← ht]
  change afterStart _ = _
  simp [goTo, emit, wstartEvents, clockWrite, dataWrite, sleepEvent, inFlight]

theorem pshift_bit_runs {s : State} (h : Running s) (hp : s.phase = .pshift) (hk : s.step = 0) :
    Runs 5 s (afterBit { s with
      trace := s.trace ++ bitEvents s.clockPin s.dataPin s.params.clockDelay (s.shreg.getLsbD 0) }) := by
  obtain ⟨u, rfl⟩ := exists_eq_inFlight h hp hk
  refine ⟨_, rfl, _, rfl, _, rfl, _, rfl, _, rfl, ?_⟩
  simp [afterBit, goTo, emit, bitEvents, clockWrite, dataWrite, sleepEvent]

theorem pack_runs {s t : State} (h : Running s) (hp : s.phase = .pack) (hk : s.step = 0)
    (ht : afterAck { s with
      trace := s.trace ++ wackEvents s.clockPin s.params.clockDelay,
      txIdx := s.txIdx + 1, step := 4 } = .next t) :
    Runs 5 s t := by
  obtain ⟨u, rfl⟩ := exists_eq_inFlight h hp hk
  refine ⟨_, rfl, _, rfl, _, rfl, _, rfl, t, ?_, rfl⟩
  rw [← ht]
  change afterAck _ = _
  simp [goTo, emit, countAck, foldAck, ackResult, wackEvents, clockWrite, sleepEvent, inFlight]

theorem pstop_runs {s : State} (h : Running s) (hp : s.phase = .pstop) (hk : s.step = 0) :
    Runs 7 s (frameOver { s with
      trace := s.trace ++ wstopEvents s.clockPin s.dataPin s.params.clockDelay }) := by
  rw [← frameOver_position s.busy .pstop 6]
  obtain ⟨u, rfl⟩ := exists_eq_inFlight h hp hk
  refine ⟨_, rfl, _, rfl, _, rfl, _, rfl, _, rfl, _, rfl, _, rfl, ?_⟩
  simp [goTo, emit, wstopEvents, clockWrite, dataWrite, sleepEvent, inFlight]

/-- The loop of `WSHIFT` (R112, R122): the `n + 1` bits left are sent, the lowest first. -/
theorem pshift_loop_runs (n : Nat) {s : State} (h : Running s) (hp : s.phase = .pshift)
    (hk : s.step = 0) (hn : s.bitCnt.toNat + n = 7) :
    Runs (5 * (n + 1)) s { s with
      trace := s.trace ++ shiftLoop s.clockPin s.dataPin s.params.clockDelay (n + 1) s.shreg,
      shreg := s.shreg >>> (n + 1), bitCnt := 8, phase := .pack, step := 0 } := by
  induction n generalizing s with
  | zero =>
    have hbit := pshift_bit_runs h hp hk
    rw [afterBit_of_last (by exact hn)] at hbit
    simpa [shiftLoop] using hbit
  | succ n ih =>
    have hbit := pshift_bit_runs h hp hk
    rw [afterBit_of_more (by show s.bitCnt.toNat < 7; omega)] at hbit
    have hrest := runs_trans hbit (ih h rfl rfl (by simp; omega))
    rw [show 5 * (n + 1 + 1) = 5 + 5 * (n + 1) by omega]
    simpa [shiftLoop, BitVec.shiftRight_add, Nat.add_comm] using hrest

/-- One loaded byte (R112, R122). -/
theorem pshift_runs {s : State} (h : Running s) (hp : s.phase = .pshift) (hk : s.step = 0)
    (hc : s.bitCnt = 0) :
    Runs 40 s { s with
      trace := s.trace ++ wshiftEvents s.clockPin s.dataPin s.params.clockDelay s.shreg,
      shreg := 0, bitCnt := 8, phase := .pack, step := 0 } := by
  have hrun := pshift_loop_runs 7 h hp hk (by simp [hc])
  have hempty : s.shreg >>> 8 = 0#8 := BitVec.ushiftRight_eq_zero (Nat.le_refl 8)
  simpa [hempty, wshiftEvents] using hrun

/-! ### The bytes of a frame (R50, R53) -/

theorem TxBuf.toList_set (b : TxBuf) (i : Nat) (v : Byte) : (b.set i v).toList = b.toList.set i v := by
  match i with
  | 0 | 1 | 2 | 3 | 4 | 5 => rfl
  | _ + 6 => rfl

@[simp] theorem TxBuf.toList_length (b : TxBuf) : b.toList.length = 6 := rfl

/-- After a load the entries up to its end are the old ones before it and then the bytes loaded. -/
theorem TxBuf.take_toList_loadAt (b : TxBuf) (i : Nat) (bytes : List Byte) (h : i + bytes.length ≤ 6) :
    (b.loadAt i bytes).toList.take (i + bytes.length) = b.toList.take i ++ bytes := by
  induction bytes generalizing b i with
  | nil => simp [TxBuf.loadAt]
  | cons v vs ih =>
    simp only [List.length_cons] at h ⊢
    have hi : i < b.toList.length := by simp; omega
    have hload := ih (b.set i v) (i + 1) (by omega)
    rw [TxBuf.toList_set, List.take_add_one] at hload
    rw [List.getElem?_set_self hi, List.take_set_of_le (Nat.le_refl i)] at hload
    simpa [TxBuf.loadAt, Nat.add_assoc, Nat.add_comm 1] using hload

/-- The bytes of the frame in flight from index `i` on. -/
def frameBytesFrom (i : Nat) (s : State) : List Byte := (s.txBuf.toList.take s.txLen.toNat).drop i

theorem frameBytesFrom_eq_cons {s : State} {i : Nat} (hi : i < s.txLen.toNat) (h6 : s.txLen.toNat ≤ 6) :
    ∃ b, s.txBuf.get? i = some b ∧ frameBytesFrom i s = b :: frameBytesFrom (i + 1) s := by
  have hlt : i < (s.txBuf.toList.take s.txLen.toNat).length := by simp; omega
  refine ⟨_, ?_, List.drop_eq_getElem_cons hlt⟩
  simp [TxBuf.get?]

theorem frameBytesFrom_of_le {s : State} {i : Nat} (hi : s.txLen.toNat ≤ i) :
    frameBytesFrom i s = [] := by
  simp [frameBytesFrom]; omega

/-- One byte of a frame: its eight bits and its acknowledgement (R112 to R114), up to the place where
the next byte or the stop is chosen. -/
theorem byte_runs {s t : State} (h : Running s) (hp : s.phase = .pshift) (hk : s.step = 0)
    (hc : s.bitCnt = 0)
    (ht : afterAck { s with
      trace := s.trace ++ byteEvents s.clockPin s.dataPin s.params.clockDelay s.shreg,
      shreg := 0, bitCnt := 8, txIdx := s.txIdx + 1, phase := .pack, step := 4 } = .next t) :
    Runs 45 s t := by
  refine runs_trans (pshift_runs h hp hk hc) (pack_runs h rfl rfl ?_)
  simpa [byteEvents] using ht

/-- The bytes of a frame from the one loaded on (R114, R122, R123): each is shifted and acknowledged in
its turn, and the last one leads to the stop. -/
theorem bytes_runs (n : Nat) {s : State} (h : Running s) (hp : s.phase = .pshift) (hk : s.step = 0)
    (hc : s.bitCnt = 0) (hb : s.txBuf.get? s.txIdx.toNat = some s.shreg)
    (hn : s.txIdx.toNat + (n + 1) = s.txLen.toNat) (h6 : s.txLen.toNat ≤ 6) :
    Runs (45 * (n + 1)) s { s with
      trace := s.trace ++ (frameBytesFrom s.txIdx.toNat s).flatMap
        (byteEvents s.clockPin s.dataPin s.params.clockDelay),
      txIdx := s.txLen, shreg := 0, bitCnt := 8, phase := .pstop, step := 0 } := by
  obtain ⟨b, hb', hbytes⟩ := frameBytesFrom_eq_cons (s := s) (i := s.txIdx.toNat) (by omega) h6
  obtain rfl : s.shreg = b := by simpa [hb] using hb'
  induction n generalizing s with
  | zero =>
    have hlast : s.txIdx + 1#3 = s.txLen := by bv_omega
    have hnone := frameBytesFrom_of_le (s := s) hn.ge
    simpa [hbytes, hnone, hlast] using byte_runs h hp hk hc (afterAck_of_last hlast)
  | succ n ih =>
    have hidx : (s.txIdx + 1).toNat = s.txIdx.toNat + 1 := by bv_omega
    have hmore : s.txIdx + 1 ≠ s.txLen := by bv_omega
    obtain ⟨b, hnext, hbytes'⟩ :=
      frameBytesFrom_eq_cons (s := s) (i := s.txIdx.toNat + 1) (by omega) h6
    rw [← hidx] at hnext hbytes hbytes'
    have hbyte := byte_runs h hp hk hc (afterAck_of_more hmore hnext)
    have hrest := ih (s := { s with
      trace := s.trace ++ byteEvents s.clockPin s.dataPin s.params.clockDelay s.shreg,
      shreg := b, bitCnt := 0, txIdx := s.txIdx + 1, phase := .pshift, step := 0 })
      h rfl rfl rfl hnext (by dsimp only; omega) h6 hnext hbytes'
    rw [show 45 * (n + 1 + 1) = 45 + 45 * (n + 1) by omega, hbytes]
    have hall := runs_trans hbyte hrest
    simpa [frameBytesFrom] using hall

/-- A whole frame (R114, R126), of any length the buffer holds and with any further frame behind it. -/
theorem frame_runs {s : State} (h : Running s) (hp : s.phase = .pstart) (hk : s.step = 0)
    (hi : s.txIdx = 0) (h6 : s.txLen.toNat ≤ 6) :
    Runs (11 + 45 * s.txLen.toNat) s (frameOver { s with
      trace := s.trace ++ wframeEvents s.clockPin s.dataPin s.params.clockDelay
        (s.txBuf.toList.take s.txLen.toNat),
      txIdx := s.txLen, shreg := if s.txLen = 0 then s.shreg else 0,
      bitCnt := if s.txLen = 0 then s.bitCnt else 8 }) := by
  rw [← frameOver_position s.busy .pstop 0]
  by_cases hz : s.txLen = 0#3
  · have hstart := pstart_runs h hp hk (afterStart_of_empty hz)
    have hstop := runs_trans hstart (pstop_runs h rfl rfl)
    simpa [hz, hi, wframeEvents] using hstop
  · have hpos : 0 < s.txLen.toNat := by bv_omega
    have hstart := pstart_runs h hp hk (afterStart_of_bytes hz)
    have hbytes := runs_trans hstart (bytes_runs (s.txLen.toNat - 1) h rfl rfl rfl
      (by simp [hi, TxBuf.get?, TxBuf.toList]) (by simp [hi]; omega) h6)
    have hstop := runs_trans hbytes (pstop_runs h rfl rfl)
    rw [show 11 + 45 * s.txLen.toNat = 4 + 45 * (s.txLen.toNat - 1 + 1) + 7 by omega]
    simpa [hz, hi, wframeEvents, frameBytesFrom] using hstop

/-! ### A request as a run (R13, R120, R126) -/

/-- What R33 says of the sequencer registers while the block is idle. -/
def AtRest (s : State) : Prop := s.busy = false ∧ s.phase = .idle ∧ s.step = 0 ∧ s.further = .nothing

theorem State.Inv.atRest {s : State} (h : s.Inv) (hb : s.busy = false) : AtRest s := ⟨hb, h.idle hb⟩

/-- The last event of a request brings the sequencer back to rest and writes `status` alone. -/
theorem frameOver_of_atRest {s : State} (h : AtRest s) :
    frameOver { s with further := .nothing } = completed s := by
  obtain ⟨hb, hp, hk, hf⟩ := h
  simp [frameOver, finish, completed, ← hb, ← hp, ← hk, ← hf]

theorem ofNat_length_eq_zero {bytes : List Byte} (h : bytes.length ≤ 6) :
    BitVec.ofNat 3 bytes.length = 0#3 ↔ bytes = [] := by
  have hlt : bytes.length < 2 ^ 3 := by omega
  rw [← List.length_eq_zero_iff, ← BitVec.toNat_inj, BitVec.toNat_ofNat, Nat.mod_eq_of_lt hlt]
  rfl

/-- The frame just loaded runs to its end as `sendFrame` has it (R114, R126). -/
theorem startFrame_runs {s : State} {bytes : List Byte} (m : Further) (hr : s.resetIn = false)
    (h6 : bytes.length ≤ 6) :
    Runs (11 + 45 * bytes.length) (startFrame bytes m s)
      (frameOver { sendFrame bytes s with further := m }) := by
  have hlen : (BitVec.ofNat 3 bytes.length).toNat = bytes.length := by simp; omega
  have hbytes : (s.txBuf.loadAt 0 bytes).toList.take bytes.length = bytes := by
    simpa using s.txBuf.take_toList_loadAt 0 bytes (by omega)
  have hrun := frame_runs (s := startFrame bytes m s) ⟨rfl, hr⟩ rfl rfl rfl (by simpa [hlen] using h6)
  rw [← frameOver_position true .pstart 0]
  simpa [hlen, hbytes, ofNat_length_eq_zero h6, sendFrame, startFrame] using hrun

/-- A request of one frame (R120, R142). -/
theorem startFrame_runs_completed {s : State} {bytes : List Byte} (h : AtRest s)
    (hr : s.resetIn = false) (h6 : bytes.length ≤ 6) :
    Runs (11 + 45 * bytes.length) (startFrame bytes .nothing s) (completed (sendFrame bytes s)) := by
  have hrest : AtRest (sendFrame bytes s) := h
  rw [← frameOver_of_atRest hrest]
  exact startFrame_runs .nothing hr h6

/-- A show request: one frame, or the three of `legacy3` one after the other (R124, R144). -/
theorem startShow_runs {s : State} (h : AtRest s) (hr : s.resetIn = false) :
    Runs (showFrameEvents s.params.frameMode s.clockPin s.dataPin s.params.clockDelay s.seg).length
      (startShow s) (completed (sendShow s)) := by
  cases hm : s.params.frameMode with
  | single =>
    have hrun := startFrame_runs_completed (bytes := showBytes s.seg) h hr
      (by simp [showBytes, SegBuf.toList])
    simpa [startShow, sendShow, hm, showFrameEvents] using hrun
  | legacy3 =>
    have hdata := startFrame_runs (s := s) (bytes := [cmdDataByte]) .addrFrame hr (by simp)
    have haddr := startFrame_runs (s := sendFrame [cmdDataByte] s) (bytes := [cmdAddrByte]) .segFrame hr
      (by simp)
    have hseg := startFrame_runs_completed (s := sendFrame [cmdAddrByte] (sendFrame [cmdDataByte] s))
      (bytes := s.seg.toList) h hr (by simp [SegBuf.toList])
    have hrun := runs_trans hdata (runs_trans haddr hseg)
    simpa [startShow, sendShow, hm, showFrameEvents, Nat.add_assoc] using hrun

theorem sendShow_trace (s : State) : (sendShow s).trace = s.trace ++
    showFrameEvents s.params.frameMode s.clockPin s.dataPin s.params.clockDelay s.seg := by
  cases hm : s.params.frameMode <;> simp [sendShow, hm, sendFrame, showFrameEvents]

/-- From `s` the request `i` is accepted and then runs to `t`, one step for each event it emits. -/
def RunsAs (i : Instr) (s t : State) : Prop :=
  ∃ u, exec i s = .next u ∧ Runs (t.trace.length - s.trace.length) u t

/-- A request that fails a check is over with its acceptance (R179). -/
theorem runsAs_failed {i : Instr} {s : State} {code : Status}
    (h : exec i s = .next { s with status := code }) : RunsAs i s (failed code s) :=
  ⟨_, h, by simp [failed]⟩

theorem runsAs_of_runs {i : Instr} {s u t : State} {es : List Event} (h : exec i s = .next u)
    (hrun : Runs es.length u t) (ht : t.trace = s.trace ++ es) : RunsAs i s t :=
  ⟨u, h, by simpa [ht] using hrun⟩

/-- The two lifecycle states of a content or brightness request (R139, R172). -/
theorem runsAs_checkedBody {i : Instr} {s t : State} {r : Result} (hb : s.busy = false)
    (hexec : exec i s = whenIdle s (whenInitialized s r))
    (hbody : exec i s = r → RunsAs i s t) : RunsAs i s (checkedBody s t) := by
  rw [whenIdle_of_idle hb] at hexec
  cases hl : s.lifecycle with
  | uninitialized =>
    rw [whenInitialized_of_uninitialized hl] at hexec
    simpa [checkedBody, hl] using runsAs_failed hexec
  | initialized =>
    rw [whenInitialized_of_initialized hl] at hexec
    simpa [checkedBody, hl] using hbody hexec

/-- A show request of the segment buffer `b`, once accepted (R144). -/
theorem runsAs_show {i : Instr} {s : State} {b : SegBuf} (h : AtRest s) (hr : s.resetIn = false)
    (hexec : exec i s = .next (startShow { s with seg := b })) :
    RunsAs i s (completed (sendShow { s with seg := b })) :=
  runsAs_of_runs hexec (startShow_runs (s := { s with seg := b }) h hr) (sendShow_trace _)

/-- A show request whose buffer is rendered in the selected font (R24, R145, R148). -/
theorem runsAs_wholeShow {i : Instr} {s : State} {render : FontTable → SegBuf} (hinv : s.Inv)
    (h : AtRest s) (hr : s.resetIn = false)
    (hexec : exec i s = withFont s fun f => .next (startShow { s with seg := render f })) :
    RunsAs i s (wholeShow render s) := by
  obtain ⟨f, hf⟩ := selectedFont_of_lt hinv.font
  rw [withFont_of_selected hf] at hexec
  simpa [wholeShow, hf] using runsAs_show h hr hexec

/-! ### `INIT` on an idle block (R140, R172, R174) -/

section Init
variable {cp dp : PinId} {fs : Byte} {s : State}

theorem exec_init_of_initialized (hb : s.busy = false) (hl : s.lifecycle = .initialized) :
    exec (.init cp dp fs) s = .next { s with status := .misuse } := by
  simp [exec, execInit, whenIdle_of_idle hb, hl, raiseMisuse, raiseError]

theorem exec_init_of_font (hb : s.busy = false) (hl : s.lifecycle = .uninitialized)
    (hfs : fs.toNat < s.params.nFonts) : exec (.init cp dp fs) s = .next (startPinSetup cp dp fs s) := by
  simp [exec, execInit, whenIdle_of_idle hb, hl, whenFontExists, hfs]

theorem exec_init_of_missingFont (hb : s.busy = false) (hl : s.lifecycle = .uninitialized)
    (hfs : ¬ fs.toNat < s.params.nFonts) : exec (.init cp dp fs) s = .next { s with status := .illegal } := by
  simp [exec, execInit, whenIdle_of_idle hb, hl, whenFontExists, hfs, raiseIllegal, raiseError]

/-- The pin set-up of an accepted `INIT` (R125, R141). -/
theorem startPinSetup_runs (h : AtRest s) (hr : s.resetIn = false) :
    Runs 4 (startPinSetup cp dp fs s) (wholeInit cp dp fs s) := by
  obtain ⟨hb, hp, hk, -⟩ := h
  have hrun := pinit_runs (s := startPinSetup cp dp fs s) ⟨rfl, hr⟩ rfl rfl
  simpa [startPinSetup, finish, wholeInit, completed, hb, hp, hk] using hrun

end Init

/-- `INIT` with its checks in order, its acceptance and its pin set-up (R140, R178). -/
theorem runsAs_init (cp dp : PinId) (fs : Byte) {s : State} (h : AtRest s) (hr : s.resetIn = false) :
    RunsAs (.init cp dp fs) s (checkedInit cp dp fs s) := by
  cases hl : s.lifecycle with
  | initialized => simpa [checkedInit, hl] using runsAs_failed (exec_init_of_initialized h.1 hl)
  | uninitialized =>
    by_cases hfs : fs.toNat < s.params.nFonts
    · have hrun := runsAs_of_runs (es := pinSetupEvents cp dp) (exec_init_of_font h.1 hl hfs)
        (startPinSetup_runs h hr) rfl
      simpa [checkedInit, hl, hfs] using hrun
    · simpa [checkedInit, hl, hfs] using runsAs_failed (exec_init_of_missingFont h.1 hl hfs)

/-- Every request carried out step by step is the request carried out whole (R13, R126). -/
theorem runsAs_wholeRequest {i : Instr} {s : State} (hi : i.format = .req) (hinv : s.Inv)
    (hb : s.busy = false) (hr : s.resetIn = false) : RunsAs i s (wholeRequest i s) := by
  have h := hinv.atRest hb
  cases i with
  | init cp dp fs => exact runsAs_init cp dp fs h hr
  | bright level =>
    have hrun := startFrame_runs_completed (bytes := [ctrlByte (clampLevel level)]) h hr (by simp)
    exact runsAs_checkedBody hb rfl fun hexec =>
      runsAs_of_runs (es := wframeEvents ..) hexec (by simpa using hrun) rfl
  | digits t0 t1 t2 t3 t4 => exact runsAs_checkedBody hb rfl (runsAs_wholeShow hinv h hr)
  | int value => exact runsAs_checkedBody hb rfl (runsAs_wholeShow hinv h hr)
  | colon enabled => exact runsAs_checkedBody hb rfl (runsAs_show h hr)
  | reserved5 => exact runsAs_failed (whenIdle_of_idle hb)
  | reserved6 => exact runsAs_failed (whenIdle_of_idle hb)
  | reserved7 => exact runsAs_failed (whenIdle_of_idle hb)
  | _ => cases hi

/-! ### What a request can do at acceptance (R120, R178, R179) -/

/-- The outcomes of a request that answers a next state. -/
inductive RequestKind (i : Instr) (s t : State) : Prop
  | waits (hb : s.busy = true) (ht : t = s)
  | fails (hb : s.busy = false) (code : Status) (ht : t = { s with status := code })
  | pins (hb : s.busy = false) (cp dp : PinId) (fs : Byte) (hi : i = .init cp dp fs)
      (hl : s.lifecycle = .uninitialized) (ht : t = startPinSetup cp dp fs s)
  | byte (hb : s.busy = false) (hl : s.lifecycle = .initialized) (level : Byte)
      (hi : i = .bright level) (ht : t = byteAccepted (ctrlByte (clampLevel level)) s)
  | render (hb : s.busy = false) (hl : s.lifecycle = .initialized) (b : SegBuf)
      (hi : (∃ t0 t1 t2 t3 t4, i = .digits t0 t1 t2 t3 t4) ∨ ∃ v, i = .int v)
      (ht : t = showAccepted b s)
  | colon (hb : s.busy = false) (hl : s.lifecycle = .initialized) (enabled : BitVec 1)
      (hi : i = .colon enabled)
      (ht : t = showAccepted { s.seg with d1 := forceColon enabled s.seg.d1 } s)

theorem requestKind_of_checked {i : Instr} {s t : State} {r : Result}
    (h : whenIdle s (whenInitialized s r) = .next t)
    (hbody : s.busy = false → s.lifecycle = .initialized → r = .next t → RequestKind i s t) :
    RequestKind i s t := by
  rcases whenIdle_next h with ⟨hb, ht⟩ | ⟨hb, h⟩
  · exact .waits hb ht
  · rcases whenInitialized_next h with ⟨_, ht⟩ | ⟨hl, h⟩
    · exact .fails hb .misuse ht
    · exact hbody hb hl h

theorem requestKind_of_rejected {i : Instr} {s t : State} (h : rejectOpcode s = .next t) :
    RequestKind i s t := by
  rcases whenIdle_next h with ⟨hb, ht⟩ | ⟨hb, h⟩
  · exact .waits hb ht
  · cases h
    exact .fails hb .illegal rfl

theorem requestKind_of_init {cp dp : PinId} {fs : Byte} {s t : State}
    (h : exec (.init cp dp fs) s = .next t) : RequestKind (.init cp dp fs) s t := by
  rcases whenIdle_next h with ⟨hb, ht⟩ | ⟨hb, -⟩
  · exact .waits hb ht
  · cases hl : s.lifecycle with
    | initialized =>
      rw [exec_init_of_initialized hb hl] at h
      cases h
      exact .fails hb .misuse rfl
    | uninitialized =>
      by_cases hfs : fs.toNat < s.params.nFonts
      · rw [exec_init_of_font hb hl hfs] at h
        cases h
        exact .pins hb cp dp fs rfl hl rfl
      · rw [exec_init_of_missingFont hb hl hfs] at h
        cases h
        exact .fails hb .illegal rfl

theorem requestKind {i : Instr} {s t : State} (hi : i.format = .req) (h : exec i s = .next t) :
    RequestKind i s t := by
  cases i with
  | init cp dp fs => exact requestKind_of_init h
  | bright level =>
    refine requestKind_of_checked h fun hb hl h => ?_
    cases h
    exact .byte hb hl level rfl rfl
  | digits t0 t1 t2 t3 t4 =>
    refine requestKind_of_checked h fun hb hl h => ?_
    obtain ⟨f, -, h⟩ := withFont_next h
    rw [startShow_setSeg] at h
    cases h
    exact .render hb hl _ (.inl ⟨t0, t1, t2, t3, t4, rfl⟩) rfl
  | int value =>
    refine requestKind_of_checked h fun hb hl h => ?_
    obtain ⟨f, -, h⟩ := withFont_next h
    rw [startShow_setSeg] at h
    cases h
    exact .render hb hl _ (.inr ⟨value, rfl⟩) rfl
  | colon enabled =>
    refine requestKind_of_checked h fun hb hl h => ?_
    rw [startShow_setSeg] at h
    cases h
    exact .colon hb hl enabled rfl rfl
  | reserved5 => exact requestKind_of_rejected h
  | reserved6 => exact requestKind_of_rejected h
  | reserved7 => exact requestKind_of_rejected h
  | _ => cases hi

/-! ### What a sequencer step can do (R121 to R125) -/

theorem afterStart_next {s t : State} (h : afterStart s = .next t) :
    (s.txLen = 0 ∧ t = { s with phase := .pstop, step := 0 }) ∨
    (s.txLen ≠ 0 ∧ t = { s with shreg := s.txBuf.e0, bitCnt := 0, phase := .pshift, step := 0 }) := by
  by_cases hz : s.txLen = 0
  · rw [afterStart_of_empty hz] at h
    cases h
    exact .inl ⟨hz, rfl⟩
  · rw [afterStart_of_bytes hz] at h
    cases h
    exact .inr ⟨hz, rfl⟩

theorem afterAck_next {s t : State} (h : afterAck s = .next t) :
    (s.txIdx = s.txLen ∧ t = { s with phase := .pstop, step := 0 }) ∨
    (s.txIdx ≠ s.txLen ∧ ∃ b, s.txBuf.get? s.txIdx.toNat = some b ∧
      t = { s with shreg := b, bitCnt := 0, phase := .pshift, step := 0 }) := by
  by_cases hlast : s.txIdx = s.txLen
  · rw [afterAck_of_last hlast] at h
    cases h
    exact .inl ⟨hlast, rfl⟩
  · rw [afterAck, if_neg hlast] at h
    exact .inr ⟨hlast, loadShift_next h⟩

@[simp] theorem frameOver_params (s : State) : (frameOver s).params = s.params := by
  cases h : s.further <;> simp [frameOver, h]

/-- The outcomes of a phase row that answers a next state: `row` is any row of its table but the last. -/
inductive PhaseKind (i : Instr) (s t : State) : Prop
  | row (e : Event) (ht : t = goTo s.phase (s.step + 1) (emit e s))
  | pinitEnd (hi : i = .pinit) (hk : s.step = 3)
      (ht : t = finish (setInitialized (emit (dataWrite false s) s)))
  | pstartEnd (hi : i = .wstart) (hk : s.step = 3)
      (ht : afterStart (emit (dataWrite false s) s) = .next t)
  | pshiftEnd (hi : i = .wshift) (hk : s.step = 4) (ht : t = afterBit (emit (sleepEvent s) s))
  | packEnd (hi : i = .wack) (hk : s.step = 4)
      (ht : afterAck (countAck (emit (clockWrite false s) s)) = .next t)
  | pstopEnd (hi : i = .wstop) (hk : s.step = 6) (ht : t = frameOver (emit (dataWrite true s) s))

theorem phaseKind_of_row {i : Instr} {s t : State} {p : Phase} {n : Nat} {k : BitVec 3} {e : Event}
    (hp : s.phase = p) (hn : s.step.toNat = n) (hk : k = BitVec.ofNat 3 n + 1)
    (h : (.next (goTo p k (emit e s)) : Result) = .next t) : PhaseKind i s t := by
  have hstep : s.step = BitVec.ofNat 3 n := by simp [← hn]
  cases h
  exact .row e (by rw [hp, hk, hstep])

section PhaseKinds
variable {s t : State}

theorem phaseKind_of_pinit (h : execPinit s = .next t) : PhaseKind .pinit s t := by
  obtain ⟨-, hp, h⟩ := inPhase_next h
  split at h
  iterate 3 next hk => exact phaseKind_of_row hp hk rfl h
  next hk => cases h; exact .pinitEnd rfl (BitVec.eq_of_toNat_eq hk) rfl
  next => cases h

theorem phaseKind_of_wstart (h : execWstart s = .next t) : PhaseKind .wstart s t := by
  obtain ⟨-, hp, h⟩ := inPhase_next h
  split at h
  iterate 3 next hk => exact phaseKind_of_row hp hk rfl h
  next hk => exact .pstartEnd rfl (BitVec.eq_of_toNat_eq hk) h
  next => cases h

theorem phaseKind_of_wshift (h : execWshift s = .next t) : PhaseKind .wshift s t := by
  obtain ⟨-, hp, h⟩ := inPhase_next h
  split at h
  iterate 4 next hk => exact phaseKind_of_row hp hk rfl h
  next hk => cases h; exact .pshiftEnd rfl (BitVec.eq_of_toNat_eq hk) rfl
  next => cases h

theorem phaseKind_of_wack (h : execWack s = .next t) : PhaseKind .wack s t := by
  obtain ⟨-, hp, h⟩ := inPhase_next h
  split at h
  iterate 4 next hk => exact phaseKind_of_row hp hk rfl h
  next hk => exact .packEnd rfl (BitVec.eq_of_toNat_eq hk) h
  next => cases h

theorem phaseKind_of_wstop (h : execWstop s = .next t) : PhaseKind .wstop s t := by
  obtain ⟨-, hp, h⟩ := inPhase_next h
  split at h
  iterate 6 next hk => exact phaseKind_of_row hp hk rfl h
  next hk => cases h; exact .pstopEnd rfl (BitVec.eq_of_toNat_eq hk) rfl
  next => cases h

end PhaseKinds

theorem phaseKind {i : Instr} {s t : State} (hi : i.format = .phase) (h : exec i s = .next t) :
    PhaseKind i s t := by
  cases i with
  | pinit => exact phaseKind_of_pinit h
  | wstart => exact phaseKind_of_wstart h
  | wshift => exact phaseKind_of_wshift h
  | wack => exact phaseKind_of_wack h
  | wstop => exact phaseKind_of_wstop h
  | _ => cases hi

/-! ### What a direct call can do (log 5, log 6) -/

theorem sendCommand_next {b : Byte} {s t : State} (h : sendCommand b s = .next t) :
    t = s ∨ t = { s with status := .misuse } ∨ t = byteAccepted b s := by
  rcases whenIdle_next h with ⟨-, ht⟩ | ⟨-, h⟩
  · exact .inl ht
  · rcases whenInitialized_next h with ⟨-, ht⟩ | ⟨-, h⟩
    · exact .inr (.inl ht)
    · cases h
      exact .inr (.inr rfl)

theorem exec_wire {i : Instr} (hi : i.format = .wire) : ∃ b, ∀ s, exec i s = sendCommand b s := by
  cases i with
  | cmdData => exact ⟨_, fun _ => rfl⟩
  | cmdAddr => exact ⟨_, fun _ => rfl⟩
  | cmdCtrlOff => exact ⟨_, fun _ => rfl⟩
  | cmdCtrlOn k => exact ⟨_, fun _ => rfl⟩
  | _ => cases hi

theorem exec_encode_next {c : Byte} {s t : State} (h : exec (.encode c) s = .next t) :
    ∃ f, selectedFont s = some f ∧ t = { s with lookupOut := encodeChar f c } := by
  obtain ⟨f, hf, h⟩ := withFont_next h
  cases h
  exact ⟨f, hf, rfl⟩

/-! ### The parameters (R6) -/

theorem phaseKind_params {i : Instr} {s t : State} (h : PhaseKind i s t) : t.params = s.params := by
  cases h with
  | row e ht => subst ht; rfl
  | pinitEnd hi hk ht => subst ht; rfl
  | pstartEnd hi hk ht => obtain ⟨-, rfl⟩ | ⟨-, rfl⟩ := afterStart_next ht <;> rfl
  | pshiftEnd hi hk ht => subst ht; rfl
  | packEnd hi hk ht => obtain ⟨-, rfl⟩ | ⟨-, _, -, rfl⟩ := afterAck_next ht <;> rfl
  | pstopEnd hi hk ht => subst ht; simp

/-! ### Reset (R43) -/

/-- At reset the block is idle and uninitialised and its trace is empty, so every clause of the invariant
but the one about the font holds of itself. -/
theorem State.resetWith_inv (p : Params) (h : 0 < p.nFonts) : (State.resetWith p).Inv where
  font := h
  ack := rfl
  status := nofun
  idle := fun _ => ⟨rfl, rfl, rfl⟩
  position := nofun
  legacy := fun hf => absurd rfl hf
  pins := nofun
  configured := trivial

/-! ### The obligations of 00_scope -/

/-- Settles O42: the counts of a frame are those of its start, its stop and, byte by byte, its shifts
and acknowledgements. -/
theorem frameShapeAndCounts : Obligations.FrameShapeAndCounts := fun c d t bytes =>
  ⟨rfl, wframeEvents_length c d t bytes, wframeEvents_countP_isWrite c d t bytes,
    wframeEvents_countP_isSleep c d t bytes, wframeEvents_minDuration c d t bytes⟩

/-- Settles O38: the step that takes the request, then the run of the accepted request. -/
theorem requestRunAgreesWithTheWholeRequest : Obligations.RequestRunAgreesWithTheWholeRequest := by
  intro s w rest hinv hport hq
  have ⟨hb, hr, _⟩ := hport
  have htaken : ({ s with hostReqs := rest } : State).Inv := { hinv with }
  obtain ⟨u, hexec, hrun⟩ := runsAs_wholeRequest (format_of_decodeReq w) htaken hb hr
  rw [Nat.add_comm]
  exact runs_succ ((step_request hport hq).trans hexec) hrun

/-- Settles O45. -/
theorem resetMeetsTheInvariant : Obligations.ResetMeetsTheInvariant :=
  ⟨State.resetWith_inv, State.resetWith_inv defaultParams (by decide)⟩

/-- Settles O58, by the outcomes a request can have. -/
theorem requestFrame : Obligations.RequestFrame := by
  intro i s t hi h
  cases requestKind hi h with
  | waits hb ht => subst ht; simp
  | fails hb code ht => subst ht; simp
  | pins hb cp dp fs hi hl ht => subst hi ht; simp
  | byte hb hl level hi ht => subst hi ht; simp [byteAccepted]
  | render hb hl b hi ht =>
    subst ht
    obtain ⟨t0, t1, t2, t3, t4, rfl⟩ | ⟨v, rfl⟩ := hi <;>
      cases hm : s.params.frameMode <;> simp [showAccepted, hm]
  | colon hb hl enabled hi ht =>
    subst hi ht
    cases hm : s.params.frameMode <;> simp [showAccepted, hm]

/-- Settles O57, by the kinds of a step. -/
theorem parametersNeverChange : Obligations.ParametersNeverChange := by
  intro s t h
  cases stepKind h with
  | reset hr ht => subst ht; rfl
  | wait hr hb ht => subst ht; rfl
  | phase hr hb i hi hd he => exact phaseKind_params (phaseKind hi he)
  | request hr hb hn w rest hq he =>
    obtain ⟨hparams, -⟩ := requestFrame _ _ _ (format_of_decodeReq w) he
    exact hparams
  | wire hr hb i hi he =>
    obtain ⟨b, hsend⟩ := exec_wire hi
    rw [hsend] at he
    obtain rfl | rfl | rfl := sendCommand_next he <;> rfl
  | lookup hr hb c he =>
    obtain ⟨f, -, rfl⟩ := exec_encode_next he
    rfl

end Sys2Proof.Machine

/-! PROOFS. What one step of a request in flight does, what every step keeps, what steers nothing, the small
encoding spaces, and the line levels at rest; the obligations they settle stand at the end. -/

namespace Sys2Proof.Machine

/-! ### One step of a request in flight (R121 to R126) -/

/-- The number of rows of a phase's table. -/
def phaseRows : Phase → Nat
  | .idle => 0
  | .pinit => 4
  | .pstart => 4
  | .pshift => 5
  | .pack => 5
  | .pstop => 7

/-- What a row before the last one of its table emits: only `PINIT` configures a pin, and it writes none
before both are configured. -/
def RowEvent (s : State) : Event → Prop
  | .cfg p => s.phase = .pinit ∧ (s.step.toNat = 0 ∧ p = s.clockPin ∨ s.step.toNat = 1 ∧ p = s.dataPin)
  | .w p _ => (p = s.clockPin ∨ p = s.dataPin) ∧ (s.phase = .pinit → 2 ≤ s.step.toNat)
  | .s _ => s.phase ≠ .pinit

/-- The outcomes of a step at a position of the rules, one constructor for the rows before the last and one
for each way a last row goes on. -/
inductive FlightStep (s t : State) : Prop
  | row (e : Event) (he : RowEvent s e) (hk : s.step.toNat + 1 < phaseRows s.phase)
      (ht : t = goTo s.phase (s.step + 1) (emit e s))
  | setUp (hp : s.phase = .pinit) (hk : s.step.toNat = 3)
      (ht : t = finish (setInitialized (emit (dataWrite false s) s)))
  | startEmpty (hp : s.phase = .pstart) (hk : s.step.toNat = 3) (hz : s.txLen = 0)
      (ht : t = { emit (dataWrite false s) s with phase := .pstop, step := 0 })
  | startByte (hp : s.phase = .pstart) (hk : s.step.toNat = 3) (hz : s.txLen ≠ 0)
      (ht : t = { emit (dataWrite false s) s with
        shreg := s.txBuf.e0, bitCnt := 0, phase := .pshift, step := 0 })
  | nextBit (hp : s.phase = .pshift) (hk : s.step.toNat = 4) (hc : s.bitCnt.toNat < 7)
      (ht : t = { emit (sleepEvent s) s with
        shreg := s.shreg >>> 1, bitCnt := s.bitCnt + 1, phase := .pshift, step := 0 })
  | lastBit (hp : s.phase = .pshift) (hk : s.step.toNat = 4) (hc : s.bitCnt.toNat = 7)
      (ht : t = { emit (sleepEvent s) s with
        shreg := s.shreg >>> 1, bitCnt := 8, phase := .pack, step := 0 })
  | nextByte (hp : s.phase = .pack) (hk : s.step.toNat = 4) (hi : s.txIdx + 1 ≠ s.txLen) (b : Byte)
      (hb : s.txBuf.get? (s.txIdx + 1).toNat = some b)
      (ht : t = { emit (clockWrite false s) s with
        txIdx := s.txIdx + 1, shreg := b, bitCnt := 0, phase := .pshift, step := 0 })
  | lastByte (hp : s.phase = .pack) (hk : s.step.toNat = 4) (hi : s.txIdx + 1 = s.txLen)
      (ht : t = { emit (clockWrite false s) s with
        txIdx := s.txIdx + 1, phase := .pstop, step := 0 })
  | frameEnd (hp : s.phase = .pstop) (hk : s.step.toNat = 6)
      (ht : t = frameOver (emit (dataWrite true s) s))

/-- The acknowledgement is the fixed success of R176, so counting one leaves `ackAcc` alone. -/
theorem countAck_eq (s : State) : countAck s = { s with txIdx := s.txIdx + 1 } := by
  simp [countAck, foldAck, ackResult]

theorem flightStep_of_row {s : State} {p : Phase} {n : Nat} {k : BitVec 3} {e : Event}
    (hp : s.phase = p) (hn : s.step.toNat = n) (hk : k = BitVec.ofNat 3 n + 1)
    (hlt : n + 1 < phaseRows p) (he : RowEvent s e) :
    ∃ t, (.next (goTo p k (emit e s)) : Result) = .next t ∧ FlightStep s t := by
  have hstep : s.step = BitVec.ofNat 3 n := by simp [← hn]
  exact ⟨_, rfl, .row e he (by rw [hp, hn]; exact hlt) (by rw [hp, hk, hstep])⟩

section Flight
variable {s : State}

theorem flightStep_of_pinit (h : Running s) (hp : s.phase = .pinit) (hk : s.step.toNat < 4) :
    ∃ t, step s = .next t ∧ FlightStep s t := by
  rw [step_pinit h hp, execPinit, inPhase_of h.1 hp]
  interval_cases hn : s.step.toNat
  iterate 3
    exact flightStep_of_row hp hn rfl (by decide)
      (by simp [RowEvent, clockWrite, hp, hn])
  · exact ⟨_, rfl, .setUp hp hn rfl⟩

theorem flightStep_of_pstart (h : Running s) (hp : s.phase = .pstart) (hk : s.step.toNat < 4) :
    ∃ t, step s = .next t ∧ FlightStep s t := by
  rw [step_pstart h hp, execWstart, inPhase_of h.1 hp]
  interval_cases hn : s.step.toNat
  iterate 3
    exact flightStep_of_row hp hn rfl (by decide)
      (by simp [RowEvent, clockWrite, dataWrite, sleepEvent, hp])
  · by_cases hz : s.txLen = 0
    · exact ⟨_, afterStart_of_empty hz, .startEmpty hp hn hz rfl⟩
    · exact ⟨_, afterStart_of_bytes hz, .startByte hp hn hz rfl⟩

theorem flightStep_of_pshift (h : Running s) (hp : s.phase = .pshift) (hk : s.step.toNat < 5)
    (hc : s.bitCnt.toNat < 8) : ∃ t, step s = .next t ∧ FlightStep s t := by
  rw [step_pshift h hp, execWshift, inPhase_of h.1 hp]
  interval_cases hn : s.step.toNat
  iterate 4
    exact flightStep_of_row hp hn rfl (by decide)
      (by simp [RowEvent, clockWrite, dataWrite, sleepEvent, hp])
  · obtain hmore | hlast : s.bitCnt.toNat < 7 ∨ s.bitCnt.toNat = 7 := by omega
    · exact ⟨_, rfl, .nextBit hp hn hmore (afterBit_of_more hmore)⟩
    · exact ⟨_, rfl, .lastBit hp hn hlast (afterBit_of_last hlast)⟩

theorem flightStep_of_pack (h : Running s) (hp : s.phase = .pack) (hk : s.step.toNat < 5)
    (hi : s.txIdx.toNat < s.txLen.toNat) (h6 : s.txLen.toNat ≤ 6) :
    ∃ t, step s = .next t ∧ FlightStep s t := by
  rw [step_pack h hp, execWack, inPhase_of h.1 hp]
  interval_cases hn : s.step.toNat
  iterate 4
    exact flightStep_of_row hp hn rfl (by decide)
      (by simp [RowEvent, clockWrite, sleepEvent, hp])
  · rw [countAck_eq]
    by_cases hlast : s.txIdx + 1 = s.txLen
    · exact ⟨_, afterAck_of_last hlast, .lastByte hp hn hlast rfl⟩
    · obtain ⟨b, hb⟩ := s.txBuf.get?_eq_some_of_lt (i := (s.txIdx + 1).toNat) (by bv_omega)
      exact ⟨_, afterAck_of_more hlast hb, .nextByte hp hn hlast b hb rfl⟩

theorem flightStep_of_pstop (h : Running s) (hp : s.phase = .pstop) (hk : s.step.toNat < 7) :
    ∃ t, step s = .next t ∧ FlightStep s t := by
  rw [step_pstop h hp, execWstop, inPhase_of h.1 hp]
  interval_cases hn : s.step.toNat
  iterate 6
    exact flightStep_of_row hp hn rfl (by decide)
      (by simp [RowEvent, clockWrite, dataWrite, sleepEvent, hp])
  · exact ⟨_, rfl, .frameEnd hp hn rfl⟩

end Flight

/-- At every position of the rules the step answers a next state (R126). -/
theorem flightStep {s : State} (h : Running s) (hpos : PositionInv s) :
    ∃ t, step s = .next t ∧ FlightStep s t := by
  unfold PositionInv at hpos
  split at hpos
  next => exact hpos.elim
  next hp =>
    obtain ⟨-, hk, -⟩ := hpos
    exact flightStep_of_pinit h hp hk
  next hp =>
    obtain ⟨-, hk, -⟩ := hpos
    exact flightStep_of_pstart h hp hk
  next hp =>
    obtain ⟨-, hk, -, hc, -⟩ := hpos
    exact flightStep_of_pshift h hp hk hc
  next hp =>
    obtain ⟨⟨-, h6⟩, hk, hi, -⟩ := hpos
    exact flightStep_of_pack h hp hk hi h6
  next hp =>
    obtain ⟨-, hk, -⟩ := hpos
    exact flightStep_of_pstop h hp hk

/-! ### The invariant under the shared operations (R24 to R40) -/

/-- An event is emitted at the positions of the rules without leaving them. -/
theorem positionInv_emit {s : State} (e : Event) (h : PositionInv s) : PositionInv (emit e s) := by
  cases hp : s.phase <;> simp_all [PositionInv, FrameInFlight]

namespace State.Inv
variable {s : State}

theorem emit {e : Event} (h : s.Inv) (he : ∀ p l, e = .w p l → .cfg p ∈ s.trace) :
    (emit e s).Inv :=
  { h with
    position := fun hb => positionInv_emit e (h.position hb)
    pins := fun hl => (h.pins hl).imp (List.mem_append_left _) (List.mem_append_left _)
    configured := (configuredFrom_concat e [] s.trace).2 ⟨h.configured, he⟩ }

theorem failed {code : Status} (h : s.Inv) (hc : code ≠ .ackFail) :
    ({ s with status := code } : State).Inv :=
  { h with status := hc }

theorem startFrame {bytes : List Byte} {m : Further} (h : s.Inv) (hl : s.lifecycle = .initialized)
    (h6 : bytes.length ≤ 6) (hm : m ≠ .nothing → s.params.frameMode = .legacy3) :
    (startFrame bytes m s).Inv :=
  { h with
    ack := rfl
    idle := nofun
    position := fun _ => ⟨⟨hl, (Nat.mod_le ..).trans h6⟩, by simp, rfl⟩
    legacy := hm }

theorem startShow (h : s.Inv) (hl : s.lifecycle = .initialized) : (startShow s).Inv := by
  cases hm : s.params.frameMode <;> simp only [Machine.startShow, hm]
  · exact h.startFrame hl (Nat.le_refl 6) nofun
  · exact h.startFrame hl (by simp) fun _ => hm

theorem startPinSetup {cp dp : PinId} {fs : Byte} (h : s.Inv) (hb : s.busy = false)
    (hl : s.lifecycle = .uninitialized) (hfs : fs.toNat < s.params.nFonts) :
    (startPinSetup cp dp fs s).Inv := by
  obtain ⟨-, -, hf⟩ := h.idle hb
  exact { h with
    font := hfs
    idle := nofun
    position := fun _ => ⟨hl, by simp, hf, nofun, nofun⟩
    pins := fun hi => by simp [hl] at hi }

/-- The end of a request without a further frame. -/
theorem finish (h : s.Inv) (hf : s.further = .nothing) : (finish s).Inv :=
  { h with
    status := nofun
    idle := fun _ => ⟨rfl, rfl, hf⟩
    position := nofun }

theorem frameOver (h : s.Inv) (hl : s.lifecycle = .initialized) : (frameOver s).Inv := by
  cases hf : s.further <;> simp only [Machine.frameOver, hf]
  · exact h.finish hf
  · exact h.startFrame hl (by simp) fun _ => h.legacy (by simp [hf])
  · exact h.startFrame hl (by simp [SegBuf.toList]) nofun

/-- Wherever the sequencer writes a pin both pins are configured (R40). -/
theorem pinsConfigured (h : s.Inv) (hb : s.busy = true)
    (hk : s.phase = .pinit → 2 ≤ s.step.toNat) : PinsConfigured s := by
  have hpos := h.position hb
  unfold PositionInv at hpos
  split at hpos
  next => exact hpos.elim
  next hp =>
    obtain ⟨-, -, -, hclock, hdata⟩ := hpos
    exact ⟨hclock (by have := hk hp; omega), hdata (hk hp)⟩
  all_goals exact h.pins hpos.1.1

end State.Inv

/-! ### Every step keeps the invariant (R24 to R40) -/

/-- The event of a row is no write to a pin without configuration (R40). -/
theorem State.Inv.emit_row {s : State} {e : Event} (h : s.Inv) (hb : s.busy = true)
    (he : RowEvent s e) : (Machine.emit e s).Inv := by
  refine h.emit fun p l hw => ?_
  subst hw
  obtain ⟨rfl | rfl, hk⟩ := he
  · exact (h.pinsConfigured hb hk).1
  · exact (h.pinsConfigured hb hk).2

/-- The event of a last row is a sleep or a write to a configured pin (R40). -/
theorem State.Inv.emit_last {s : State} {e : Event} (h : s.Inv) (hb : s.busy = true)
    (hk : s.phase = .pinit → 2 ≤ s.step.toNat)
    (he : e = sleepEvent s ∨ ∃ l, e = clockWrite l s ∨ e = dataWrite l s) :
    (Machine.emit e s).Inv := by
  obtain ⟨hclock, hdata⟩ := h.pinsConfigured hb hk
  refine h.emit fun p l hw => ?_
  obtain rfl | ⟨l', rfl | rfl⟩ := he <;> cases hw
  · exact hclock
  · exact hdata

theorem step_toNat_add_one {k : BitVec 3} {p : Phase} (h : k.toNat + 1 < phaseRows p) :
    (k + 1).toNat = k.toNat + 1 := by
  have hrows : phaseRows p ≤ 7 := by cases p <;> decide
  bv_omega

/-- The first two rows of `PINIT` configure the clock pin and the data pin (R125, R141). -/
theorem rowEvent_pinit {s : State} {e : Event} (he : RowEvent s e) (hp : s.phase = .pinit) :
    (s.step.toNat = 0 → e = .cfg s.clockPin) ∧ (s.step.toNat = 1 → e = .cfg s.dataPin) := by
  cases e with
  | cfg p => obtain ⟨-, ⟨hk, rfl⟩ | ⟨hk, rfl⟩⟩ := he <;> simp [hk]
  | w p l => have := he.2 hp; constructor <;> omega
  | s d => exact absurd hp he

/-- A row before the last leads to the next position of the same phase (R33). -/
theorem positionInv_row {s : State} {e : Event} (h : PositionInv s) (he : RowEvent s e)
    (hk : s.step.toNat + 1 < phaseRows s.phase) :
    PositionInv (goTo s.phase (s.step + 1) (emit e s)) := by
  have hstep := step_toNat_add_one hk
  rw [← hstep] at hk
  have hemit := positionInv_emit e h
  cases hp : s.phase with
  | idle => simp [PositionInv, hp] at h
  | pinit =>
    obtain ⟨hcfgClock, hcfgData⟩ := rowEvent_pinit he hp
    simp only [PositionInv, hp, emit_phase, emit_step, emit_trace] at hemit
    obtain ⟨hl, -, hf, hclock, hdata⟩ := hemit
    rw [hp] at hk
    refine ⟨hl, hk, hf, fun _ => ?_, fun hge => ?_⟩
    · by_cases h0 : s.step.toNat = 0
      · simp [hcfgClock h0]
      · exact hclock (by omega)
    · rw [goTo_step, hstep] at hge
      by_cases h1 : s.step.toNat = 1
      · simp [hcfgData h1]
      · exact hdata (by omega)
  | pstart | pshift | pack | pstop =>
    simp only [PositionInv, hp, emit_phase] at hemit
    obtain ⟨hf, -, hrest⟩ := hemit
    rw [hp] at hk
    exact ⟨hf, hk, hrest⟩

theorem State.Inv.row {s : State} {e : Event} (h : s.Inv) (hb : s.busy = true) (he : RowEvent s e)
    (hk : s.step.toNat + 1 < phaseRows s.phase) :
    (goTo s.phase (s.step + 1) (Machine.emit e s)).Inv :=
  { h.emit_row hb he with
    idle := fun hi => by simp [hb] at hi
    position := fun _ => positionInv_row (h.position hb) he hk }

/-- The sequencer registers take values of another position of the rules. -/
theorem State.Inv.moveTo {s : State} (h : s.Inv) (hb : s.busy = true) {p : Phase} {k i : BitVec 3}
    {r : Byte} {c : BitVec 4}
    (hpos : PositionInv { s with txIdx := i, shreg := r, bitCnt := c, phase := p, step := k }) :
    ({ s with txIdx := i, shreg := r, bitCnt := c, phase := p, step := k } : State).Inv :=
  { h with
    idle := fun hi => by simp [hb] at hi
    position := fun _ => hpos }

/-- A step of a request in flight keeps the invariant. -/
theorem State.Inv.flightStep {s t : State} (h : s.Inv) (hb : s.busy = true) (ht : FlightStep s t) :
    t.Inv := by
  have hpos := h.position hb
  cases ht with
  | row e he hk ht => subst ht; exact h.row hb he hk
  | setUp hp hk ht =>
    simp only [PositionInv, hp] at hpos
    obtain ⟨-, -, hf, -⟩ := hpos
    have hwrite : s.phase = .pinit → 2 ≤ s.step.toNat := fun _ => by omega
    have hemit := h.emit_last hb hwrite (.inr ⟨false, .inr rfl⟩)
    subst ht
    exact { hemit.finish hf with pins := fun _ => hemit.pinsConfigured hb hwrite }
  | startEmpty hp hk hz ht =>
    simp only [PositionInv, hp] at hpos
    obtain ⟨hframe, -, hi⟩ := hpos
    subst ht
    exact (h.emit_last hb (by simp [hp]) (.inr ⟨false, .inr rfl⟩)).moveTo hb
      ⟨hframe, by simp, hi.trans hz.symm⟩
  | startByte hp hk hz ht =>
    simp only [PositionInv, hp] at hpos
    obtain ⟨hframe, -, hi⟩ := hpos
    have hlen : s.txIdx.toNat < s.txLen.toNat := by rw [hi]; bv_omega
    subst ht
    exact (h.emit_last hb (by simp [hp]) (.inr ⟨false, .inr rfl⟩)).moveTo hb
      ⟨hframe, by simp, hlen, by simp, by simp [hi, TxBuf.get?, TxBuf.toList]⟩
  | nextBit hp hk hc ht =>
    simp only [PositionInv, hp] at hpos
    obtain ⟨hframe, -, hi, -, hbyte⟩ := hpos
    have hcnt : (s.bitCnt + 1).toNat = s.bitCnt.toNat + 1 := by bv_omega
    have hlt : (s.bitCnt + 1).toNat < 8 := by omega
    obtain ⟨b, hb', hr⟩ := Option.map_eq_some_iff.1 hbyte
    subst ht
    refine (h.emit_last hb (by simp [hp]) (.inl rfl)).moveTo hb
      ⟨hframe, by simp, hi, hlt, ?_⟩
    simp only [emit_txBuf, emit_txIdx, hb', hcnt, Option.map_some, BitVec.shiftRight_add, hr]
  | lastBit hp hk hc ht =>
    simp only [PositionInv, hp] at hpos
    obtain ⟨hframe, -, hi, -, hbyte⟩ := hpos
    obtain ⟨b, -, hr⟩ := Option.map_eq_some_iff.1 hbyte
    have hempty : s.shreg >>> 1 = 0#8 := by
      rw [← hr, hc, ← BitVec.shiftRight_add]
      exact BitVec.ushiftRight_eq_zero (Nat.le_refl 8)
    subst ht
    exact (h.emit_last hb (by simp [hp]) (.inl rfl)).moveTo hb ⟨hframe, by simp, hi, rfl, hempty⟩
  | nextByte hp hk hi b hbyte ht =>
    simp only [PositionInv, hp] at hpos
    obtain ⟨hframe, -, hlt, -⟩ := hpos
    have hlt' : (s.txIdx + 1).toNat < s.txLen.toNat := by bv_omega
    have hloaded : (s.txBuf.get? (s.txIdx + 1).toNat).map (fun v : Byte => v >>> 0) = some b := by
      rw [hbyte, Option.map_some, BitVec.ushiftRight_zero]
    subst ht
    exact (h.emit_last hb (by simp [hp]) (.inr ⟨false, .inl rfl⟩)).moveTo hb
      ⟨hframe, by simp, hlt', by simp, hloaded⟩
  | lastByte hp hk hi ht =>
    simp only [PositionInv, hp] at hpos
    obtain ⟨hframe, -⟩ := hpos
    subst ht
    exact (h.emit_last hb (by simp [hp]) (.inr ⟨false, .inl rfl⟩)).moveTo hb ⟨hframe, by simp, hi⟩
  | frameEnd hp hk ht =>
    simp only [PositionInv, hp] at hpos
    obtain ⟨⟨hl, -⟩, -⟩ := hpos
    subst ht
    exact (h.emit_last hb (by simp [hp]) (.inr ⟨true, .inr rfl⟩)).frameOver hl

/-! ### Acceptance keeps the invariant -/

/-- The gates of a content or brightness request (R139, R172): it waits, it is misuse, or its body runs. -/
theorem State.Inv.checked {s t : State} {r : Result} (h : s.Inv)
    (ht : whenIdle s (whenInitialized s r) = .next t)
    (hbody : s.lifecycle = .initialized → r = .next t → t.Inv) : t.Inv := by
  rcases whenIdle_next ht with ⟨-, rfl⟩ | ⟨-, ht⟩
  · exact h
  · rcases whenInitialized_next ht with ⟨-, rfl⟩ | ⟨hl, ht⟩
    · exact h.failed nofun
    · exact hbody hl ht

theorem State.Inv.rejected {s t : State} (h : s.Inv) (ht : rejectOpcode s = .next t) : t.Inv := by
  rcases whenIdle_next ht with ⟨-, rfl⟩ | ⟨-, ht⟩
  · exact h
  · cases ht
    exact h.failed nofun

/-- A new segment buffer is free under the invariant, and so a show request of it is accepted into it. -/
theorem State.Inv.showSeg {s : State} (h : s.Inv) (b : SegBuf) (hl : s.lifecycle = .initialized) :
    (Machine.startShow { s with seg := b }).Inv :=
  have hseg : ({ s with seg := b } : State).Inv := { h with }
  hseg.startShow hl

theorem State.Inv.init {s t : State} {cp dp : PinId} {fs : Byte} (h : s.Inv)
    (ht : exec (.init cp dp fs) s = .next t) : t.Inv := by
  rcases whenIdle_next ht with ⟨-, rfl⟩ | ⟨hb, -⟩
  · exact h
  · cases hl : s.lifecycle with
    | initialized =>
      rw [exec_init_of_initialized hb hl] at ht
      cases ht
      exact h.failed nofun
    | uninitialized =>
      by_cases hfs : fs.toNat < s.params.nFonts
      · rw [exec_init_of_font hb hl hfs] at ht
        cases ht
        exact h.startPinSetup hb hl hfs
      · rw [exec_init_of_missingFont hb hl hfs] at ht
        cases ht
        exact h.failed nofun

theorem State.Inv.request {i : Instr} {s t : State} (h : s.Inv) (hi : i.format = .req)
    (ht : exec i s = .next t) : t.Inv := by
  cases i with
  | init cp dp fs => exact h.init ht
  | bright level =>
    refine h.checked ht fun hl ht => ?_
    cases ht
    exact h.startFrame hl (by simp) nofun
  | digits t0 t1 t2 t3 t4 =>
    refine h.checked ht fun hl ht => ?_
    obtain ⟨f, -, ht⟩ := withFont_next ht
    cases ht
    exact h.showSeg _ hl
  | int value =>
    refine h.checked ht fun hl ht => ?_
    obtain ⟨f, -, ht⟩ := withFont_next ht
    cases ht
    exact h.showSeg _ hl
  | colon enabled =>
    refine h.checked ht fun hl ht => ?_
    cases ht
    exact h.showSeg _ hl
  | reserved5 | reserved6 | reserved7 => exact h.rejected ht
  | _ => cases hi

/-- A command byte called directly (log 5). -/
theorem State.Inv.command {b : Byte} {s t : State} (h : s.Inv)
    (ht : sendCommand b s = .next t) : t.Inv := by
  refine h.checked ht fun hl ht => ?_
  cases ht
  exact h.startFrame hl (by simp) nofun

/-! ### The events left (R115, R126) -/

/-- When a frame is over, what is left is the frames that follow it, the next of them now loaded (R144). -/
theorem eventsLeft_frameOver (s : State) : eventsLeft (frameOver s) = furtherEvents s.further := by
  cases hf : s.further <;> simp [frameOver, hf, eventsLeft, furtherEvents, SegBuf.toList]

/-- A row before the last leaves one row less of its phase, and the rest of the request as it was. -/
theorem eventsLeft_row {s : State} {e : Event} (hk : s.step.toNat + 1 < phaseRows s.phase) :
    eventsLeft (goTo s.phase (s.step + 1) (emit e s)) + 1 = eventsLeft s := by
  have hstep := step_toNat_add_one hk
  simp only [eventsLeft, goTo_phase, goTo_step, hstep, goTo_txLen, goTo_txIdx, goTo_bitCnt,
    goTo_further, emit_txLen, emit_txIdx, emit_bitCnt, emit_further]
  cases hp : s.phase <;> simp only [hp, phaseRows] at hk ⊢ <;> omega

/-- A step of a request in flight emits one of the events left. -/
theorem FlightStep.eventsLeft_add_one {s t : State} (h : FlightStep s t) (hpos : PositionInv s) :
    eventsLeft t + 1 = eventsLeft s := by
  cases h with
  | row e he hk ht => subst ht; exact eventsLeft_row hk
  | setUp hp hk ht => subst ht; simp [eventsLeft, hp, hk]
  | startEmpty hp hk hz ht => subst ht; simp [eventsLeft, hp, hk, hz]; omega
  | startByte hp hk hz ht =>
    simp only [PositionInv, hp] at hpos
    obtain ⟨-, -, hi⟩ := hpos
    have hlen : 0 < s.txLen.toNat := by bv_omega
    subst ht
    simp [eventsLeft, hp, hk, hi]
    omega
  | nextBit hp hk hc ht =>
    have hcnt : (s.bitCnt + 1).toNat = s.bitCnt.toNat + 1 := by bv_omega
    subst ht
    simp only [eventsLeft, hp, hk, hcnt]
    simp
    omega
  | lastBit hp hk hc ht =>
    subst ht
    simp [eventsLeft, hp, hk, hc]
    omega
  | nextByte hp hk hi b hb ht =>
    simp only [PositionInv, hp] at hpos
    obtain ⟨-, -, hlt, -⟩ := hpos
    have hidx : (s.txIdx + 1).toNat = s.txIdx.toNat + 1 := by bv_omega
    have hmore : s.txIdx.toNat + 1 < s.txLen.toNat := by bv_omega
    subst ht
    simp only [eventsLeft, hp, hk, hidx]
    simp
    omega
  | lastByte hp hk hi ht =>
    have hlen : s.txLen.toNat - s.txIdx.toNat - 1 = 0 := by bv_omega
    subst ht
    simp [eventsLeft, hp, hk, hlen]
    omega
  | frameEnd hp hk ht =>
    subst ht
    rw [eventsLeft_frameOver]
    simp [eventsLeft, hp, hk, Nat.add_comm]

/-- While a request is in flight something is left to emit. -/
theorem eventsLeft_pos {s : State} (hpos : PositionInv s) : 0 < eventsLeft s := by
  unfold PositionInv at hpos
  split at hpos
  next => exact hpos.elim
  all_goals next hp => simp only [eventsLeft, hp]; omega

/-! ### The trace (R33, R35) -/

@[simp] theorem frameOver_trace (s : State) : (frameOver s).trace = s.trace := by
  cases hf : s.further <;> simp [frameOver, hf]

/-- A row of the sequencer emits exactly one event. -/
theorem PhaseKind.trace {i : Instr} {s t : State} (h : PhaseKind i s t) :
    ∃ e, t.trace = s.trace ++ [e] := by
  cases h with
  | row e ht => subst ht; exact ⟨_, rfl⟩
  | pinitEnd hi hk ht => subst ht; exact ⟨_, rfl⟩
  | pstartEnd hi hk ht => obtain ⟨-, rfl⟩ | ⟨-, rfl⟩ := afterStart_next ht <;> exact ⟨_, rfl⟩
  | pshiftEnd hi hk ht => subst ht; exact ⟨_, rfl⟩
  | packEnd hi hk ht => obtain ⟨-, rfl⟩ | ⟨-, _, -, rfl⟩ := afterAck_next ht <;> exact ⟨_, rfl⟩
  | pstopEnd hi hk ht => subst ht; exact ⟨_, frameOver_trace _⟩

/-! ### Who writes the lifecycle and the segment buffer (R21, R25) -/

theorem exec_wire_next {i : Instr} {s t : State} (hi : i.format = .wire) (h : exec i s = .next t) :
    t = s ∨ t = { s with status := .misuse } ∨ ∃ b, t = byteAccepted b s := by
  obtain ⟨b, hsend⟩ := exec_wire hi
  rw [hsend] at h
  exact (sendCommand_next h).imp_right (Or.imp_right fun ht => ⟨b, ht⟩)

/-- The last row of `PINIT` (R125). -/
theorem exec_pinit_last {s t : State} (hk : s.step = 3) (h : exec .pinit s = .next t) :
    s.busy = true ∧ s.phase = .pinit ∧ t = finish (setInitialized (emit (dataWrite false s) s)) := by
  obtain ⟨hb, hp, h⟩ := inPhase_next h
  simp only [hk] at h
  cases h
  exact ⟨hb, hp, rfl⟩

@[simp] theorem showAccepted_seg (b : SegBuf) (s : State) : (showAccepted b s).seg = b := by
  cases hm : s.params.frameMode <;> simp [showAccepted, hm]

/-! ### The bits of a byte in sending order (R32, R57) -/

/-- The loop of `WSHIFT` sends bit 0, bit 1, and so on (R112). -/
theorem shiftLoop_eq_flatMap (c d : PinId) (t n : Nat) (r : Byte) :
    shiftLoop c d t n r = (List.range n).flatMap fun i => bitEvents c d t (r.getLsbD i) := by
  induction n generalizing r with
  | zero => rfl
  | succ n ih =>
    simp [shiftLoop, ih, List.range_succ_eq_map, List.flatMap_map, Nat.add_comm 1]

/-! ### What steers nothing: the trace, `status` and `ackAcc` (R20, R37) -/

theorem fetch_of_direct {s : State} {d : DirectWord} (hb : s.busy = false) (hd : s.direct = some d) :
    fetch s = some (d.raw, { s with direct := none }) := by
  simp [fetch, hb, hd]

theorem fetch_of_nothing {s : State} (hb : s.busy = false) (hd : s.direct = none)
    (hq : s.hostReqs = []) : fetch s = none := by
  simp [fetch, hb, hd, hq]

/-- `s'` is `s` behind the earlier events `T`, with the same `status` and `ackAcc`, or, where they are
`free`, with any. -/
def Shadows (free : Prop) (T : List Event) (s s' : State) : Prop :=
  ∃ (c : Status) (a : Bool), (¬ free → c = s.status ∧ a = s.ackAcc) ∧
    s' = { s with status := c, ackAcc := a, trace := T ++ s.trace }

/-- Two results stop for the same reason, or answer states of which one shadows the other. -/
inductive ShadowResults (free : Prop) (T : List Event) : Result → Result → Prop
  | next {t t' : State} (h : Shadows free T t t') : ShadowResults free T (.next t) (.next t')
  | fault (r : Fault) : ShadowResults free T (.fault r) (.fault r)
  | refused (r : Refusal) : ShadowResults free T (.refused r) (.refused r)

/-- `f` reads neither `status` nor `ackAcc` nor the trace. -/
def Unread {α : Type} (f : State → α) : Prop :=
  ∀ s c a U, f { s with status := c, ackAcc := a, trace := U } = f s

section Shadow
variable {free : Prop} {T : List Event} {s s' : State}

namespace Shadows

/-- A state and its shadow agree on all that can be computed from the other fields. -/
theorem agree {α : Type} {f : State → α} (h : Shadows free T s s') (hf : Unread f) : f s' = f s := by
  obtain ⟨c, a, -, rfl⟩ := h
  exact hf s c a _

theorem busy (h : Shadows free T s s') : s'.busy = s.busy := h.agree fun _ _ _ _ => rfl
theorem phase (h : Shadows free T s s') : s'.phase = s.phase := h.agree fun _ _ _ _ => rfl
theorem position (h : Shadows free T s s') : s'.step = s.step := h.agree fun _ _ _ _ => rfl
theorem lifecycle (h : Shadows free T s s') : s'.lifecycle = s.lifecycle := h.agree fun _ _ _ _ => rfl
theorem params (h : Shadows free T s s') : s'.params = s.params := h.agree fun _ _ _ _ => rfl
theorem txBuf (h : Shadows free T s s') : s'.txBuf = s.txBuf := h.agree fun _ _ _ _ => rfl
theorem txLen (h : Shadows free T s s') : s'.txLen = s.txLen := h.agree fun _ _ _ _ => rfl
theorem txIdx (h : Shadows free T s s') : s'.txIdx = s.txIdx := h.agree fun _ _ _ _ => rfl
theorem seg (h : Shadows free T s s') : s'.seg = s.seg := h.agree fun _ _ _ _ => rfl
theorem further (h : Shadows free T s s') : s'.further = s.further := h.agree fun _ _ _ _ => rfl
theorem direct (h : Shadows free T s s') : s'.direct = s.direct := h.agree fun _ _ _ _ => rfl
theorem hostReqs (h : Shadows free T s s') : s'.hostReqs = s.hostReqs := h.agree fun _ _ _ _ => rfl
theorem resetIn (h : Shadows free T s s') : s'.resetIn = s.resetIn := h.agree fun _ _ _ _ => rfl

/-- An update of other fields than the three keeps the shadow. -/
theorem update {f : State → State} (h : Shadows free T s s')
    (hf : ∀ s c a U, f { s with status := c, ackAcc := a, trace := U } =
      { f s with status := c, ackAcc := a, trace := U }) :
    Shadows free T (f s) (f s') := by
  obtain ⟨c, a, hca, rfl⟩ := h
  have hself : f s = { f s with status := s.status, ackAcc := s.ackAcc, trace := s.trace } :=
    hf s s.status s.ackAcc s.trace
  refine ⟨c, a, ?_, ?_⟩
  · rw [hself]; exact hca
  · rw [hf, hself]

theorem emit {ev : State → Event} (h : Shadows free T s s') (hev : Unread ev) :
    Shadows free T (emit (ev s) s) (emit (ev s') s') := by
  rw [h.agree hev]
  obtain ⟨c, a, hca, rfl⟩ := h
  exact ⟨c, a, hca, by simp [Machine.emit]⟩

theorem finish (h : Shadows free T s s') : Shadows free T (finish s) (finish s') := by
  obtain ⟨c, a, hca, rfl⟩ := h
  exact ⟨.ok, a, fun hf => ⟨rfl, (hca hf).2⟩, rfl⟩

theorem setStatus (code : Status) (h : Shadows free T s s') :
    Shadows free T { s with status := code } { s' with status := code } := by
  obtain ⟨c, a, hca, rfl⟩ := h
  exact ⟨code, a, fun hf => ⟨rfl, (hca hf).2⟩, rfl⟩

theorem startFrame (bytes : List Byte) (m : Further) (h : Shadows free T s s') :
    Shadows free T (startFrame bytes m s) (startFrame bytes m s') := by
  obtain ⟨c, a, hca, rfl⟩ := h
  exact ⟨c, true, fun hf => ⟨(hca hf).1, rfl⟩, rfl⟩

theorem startShow (h : Shadows free T s s') : Shadows free T (startShow s) (startShow s') := by
  unfold Machine.startShow
  rw [h.params, h.seg]
  cases s.params.frameMode
  · exact h.startFrame _ .nothing
  · exact h.startFrame _ .addrFrame

theorem frameOver (h : Shadows free T s s') : Shadows free T (frameOver s) (frameOver s') := by
  unfold Machine.frameOver
  rw [h.further, h.seg]
  cases s.further
  · exact h.finish
  · exact h.startFrame _ .segFrame
  · exact h.startFrame _ .nothing

theorem raiseError (code : Status) (h : Shadows free T s s') :
    ShadowResults free T (raiseError code s) (raiseError code s') := .next (h.setStatus code)

theorem loadShift (i : Nat) (h : Shadows free T s s') :
    ShadowResults free T (loadShift i s) (loadShift i s') := by
  have hget : s'.txBuf.get? i = s.txBuf.get? i := by rw [h.txBuf]
  cases hb : s.txBuf.get? i with
  | none =>
    simp only [Machine.loadShift, hget, hb]
    exact .fault _
  | some b =>
    rw [loadShift_of_get hb, loadShift_of_get (hget.trans hb)]
    exact .next (h.update (f := fun u => { u with shreg := b, bitCnt := 0, phase := .pshift, step := 0 })
      fun _ _ _ _ => rfl)

theorem afterStart (h : Shadows free T s s') : ShadowResults free T (afterStart s) (afterStart s') := by
  unfold Machine.afterStart
  rw [h.txLen]
  split
  · exact .next (h.update (f := goTo .pstop 0) fun _ _ _ _ => rfl)
  · exact h.loadShift 0

theorem afterAck (h : Shadows free T s s') : ShadowResults free T (afterAck s) (afterAck s') := by
  unfold Machine.afterAck
  rw [h.txLen, h.txIdx]
  split
  · exact .next (h.update (f := goTo .pstop 0) fun _ _ _ _ => rfl)
  · exact h.loadShift _

/-- A row of the sequencer before the last of its table. -/
theorem row {ev : State → Event} (p : Phase) (k : BitVec 3) (h : Shadows free T s s') (hev : Unread ev) :
    ShadowResults free T (.next (goTo p k (Machine.emit (ev s) s)))
      (.next (goTo p k (Machine.emit (ev s') s'))) :=
  .next ((h.emit hev).update fun _ _ _ _ => rfl)

/-! The gates. -/

theorem inPhase {r r' : Result} {p : Phase} (h : Shadows free T s s') (hr : ShadowResults free T r r') :
    ShadowResults free T (inPhase p s r) (inPhase p s' r') := by
  unfold Machine.inPhase
  rw [h.busy, h.phase]
  split
  · exact hr
  · exact .fault _

theorem whenIdle {r r' : Result} (h : Shadows free T s s') (hr : ShadowResults free T r r') :
    ShadowResults free T (whenIdle s r) (whenIdle s' r') := by
  unfold Machine.whenIdle
  rw [h.busy]
  split
  · exact .next h
  · exact hr

theorem whenInitialized {r r' : Result} (h : Shadows free T s s') (hr : ShadowResults free T r r') :
    ShadowResults free T (whenInitialized s r) (whenInitialized s' r') := by
  unfold Machine.whenInitialized
  rw [h.lifecycle]
  cases s.lifecycle
  · exact h.raiseError .misuse
  · exact hr

theorem font (h : Shadows free T s s') : selectedFont s' = selectedFont s := h.agree fun _ _ _ _ => rfl

theorem withFont {r r' : FontTable → Result} (h : Shadows free T s s')
    (hr : ∀ f, ShadowResults free T (r f) (r' f)) :
    ShadowResults free T (withFont s r) (withFont s' r') := by
  unfold Machine.withFont
  rw [h.font]
  cases selectedFont s with
  | none => exact .fault _
  | some f => exact hr f

/-! The instructions. -/

theorem execInit (cp dp : PinId) (fs : Byte) (h : Shadows free T s s') :
    ShadowResults free T (execInit cp dp fs s) (execInit cp dp fs s') := by
  refine h.whenIdle ?_
  rw [h.lifecycle]
  cases s.lifecycle
  · simp only [whenFontExists]
    rw [h.params]
    split
    · exact .next (h.update (f := startPinSetup cp dp fs) fun _ _ _ _ => rfl)
    · exact h.raiseError .illegal
  · exact h.raiseError .misuse

theorem showSeg (b : SegBuf) (h : Shadows free T s s') :
    ShadowResults free T (.next (Machine.startShow { s with seg := b }))
      (.next (Machine.startShow { s' with seg := b })) :=
  .next (h.update (f := fun u => { u with seg := b }) fun _ _ _ _ => rfl).startShow

theorem sendCommand (b : Byte) (h : Shadows free T s s') :
    ShadowResults free T (sendCommand b s) (sendCommand b s') :=
  h.whenIdle (h.whenInitialized (.next (h.startFrame _ .nothing)))

theorem rejectOpcode (h : Shadows free T s s') :
    ShadowResults free T (rejectOpcode s) (rejectOpcode s') := h.whenIdle (h.raiseError .illegal)

theorem execPinit (h : Shadows free T s s') : ShadowResults free T (execPinit s) (execPinit s') := by
  refine h.inPhase ?_
  rw [h.position]
  match s.step.toNat with
  | 0 => exact h.row (ev := fun u => .cfg u.clockPin) _ _ fun _ _ _ _ => rfl
  | 1 => exact h.row (ev := fun u => .cfg u.dataPin) _ _ fun _ _ _ _ => rfl
  | 2 => exact h.row _ _ fun _ _ _ _ => rfl
  | 3 =>
    exact .next ((h.emit (ev := dataWrite false) fun _ _ _ _ => rfl).update
      (f := setInitialized) fun _ _ _ _ => rfl).finish
  | _ + 4 => exact .fault _

theorem execWstart (h : Shadows free T s s') : ShadowResults free T (execWstart s) (execWstart s') := by
  refine h.inPhase ?_
  rw [h.position]
  match s.step.toNat with
  | 0 | 1 | 2 => exact h.row _ _ fun _ _ _ _ => rfl
  | 3 => exact (h.emit fun _ _ _ _ => rfl).afterStart
  | _ + 4 => exact .fault _

theorem execWshift (h : Shadows free T s s') : ShadowResults free T (execWshift s) (execWshift s') := by
  refine h.inPhase ?_
  rw [h.position]
  match s.step.toNat with
  | 0 | 2 | 3 => exact h.row _ _ fun _ _ _ _ => rfl
  | 1 => exact h.row (ev := fun u => dataWrite (u.shreg.getLsbD 0) u) _ _ fun _ _ _ _ => rfl
  | 4 =>
    exact .next ((h.emit (ev := sleepEvent) fun _ _ _ _ => rfl).update (f := afterBit) fun _ _ _ _ => rfl)
  | _ + 5 => exact .fault _

theorem execWack (h : Shadows free T s s') : ShadowResults free T (execWack s) (execWack s') := by
  refine h.inPhase ?_
  rw [h.position]
  match s.step.toNat with
  | 0 | 1 | 2 | 3 => exact h.row _ _ fun _ _ _ _ => rfl
  | 4 =>
    have hack := (h.emit (ev := clockWrite false) fun _ _ _ _ => rfl).update
      (f := fun s => { s with txIdx := s.txIdx + 1 }) fun _ _ _ _ => rfl
    simpa only [countAck_eq] using hack.afterAck
  | _ + 5 => exact .fault _

theorem execWstop (h : Shadows free T s s') : ShadowResults free T (execWstop s) (execWstop s') := by
  refine h.inPhase ?_
  rw [h.position]
  match s.step.toNat with
  | 0 | 1 | 2 | 3 | 4 | 5 => exact h.row _ _ fun _ _ _ _ => rfl
  | 6 => exact .next (h.emit fun _ _ _ _ => rfl).frameOver
  | _ + 7 => exact .fault _

theorem exec (i : Instr) (h : Shadows free T s s') : ShadowResults free T (exec i s) (exec i s') := by
  cases i with
  | init cp dp fs => exact h.execInit cp dp fs
  | bright level => exact h.whenIdle (h.whenInitialized (.next (h.startFrame _ .nothing)))
  | digits t0 t1 t2 t3 t4 =>
    exact h.whenIdle (h.whenInitialized (h.withFont fun _ => h.showSeg _))
  | int value =>
    refine h.whenIdle (h.whenInitialized (h.withFont fun _ => ?_))
    rw [h.seg]
    exact h.showSeg _
  | colon enabled =>
    refine h.whenIdle (h.whenInitialized ?_)
    rw [h.seg]
    exact h.showSeg _
  | reserved5 | reserved6 | reserved7 => exact h.rejectOpcode
  | cmdData | cmdAddr | cmdCtrlOff | cmdCtrlOn k => exact h.sendCommand _
  | pinit => exact h.execPinit
  | wstart => exact h.execWstart
  | wshift => exact h.execWshift
  | wack => exact h.execWack
  | wstop => exact h.execWstop
  | encode c =>
    exact h.withFont fun f => .next (h.update (f := fun s => { s with lookupOut := encodeChar f c })
      fun _ _ _ _ => rfl)

/-- A word is fetched from a state and its shadow alike. -/
theorem fetch (h : Shadows free T s s') :
    (fetch s = none ∧ fetch s' = none) ∨
    ∃ r u u', fetch s = some (r, u) ∧ fetch s' = some (r, u') ∧ Shadows free T u u' := by
  cases hb : s.busy with
  | true => exact .inr ⟨_, _, _, fetch_of_busy hb, by rw [fetch_of_busy (h.busy.trans hb), h.phase], h⟩
  | false =>
    cases hd : s.direct with
    | some d =>
      exact .inr ⟨_, _, _, fetch_of_direct hb hd, fetch_of_direct (h.busy.trans hb) (h.direct.trans hd),
        h.update (f := fun u => { u with direct := none }) fun _ _ _ _ => rfl⟩
    | none =>
      cases hq : s.hostReqs with
      | nil =>
        exact .inl ⟨fetch_of_nothing hb hd hq,
          fetch_of_nothing (h.busy.trans hb) (h.direct.trans hd) (h.hostReqs.trans hq)⟩
      | cons w rest =>
        exact .inr ⟨_, _, _, fetch_of_request hb hd hq,
          fetch_of_request (h.busy.trans hb) (h.direct.trans hd) (h.hostReqs.trans hq),
          h.update (f := fun u => { u with hostReqs := rest }) fun _ _ _ _ => rfl⟩

/-- Outside reset a step does the same to a state and to its shadow. -/
theorem step (h : Shadows free T s s') (hr : s.resetIn = false) :
    ShadowResults free T (step s) (step s') := by
  have hr' : s'.resetIn = false := h.resetIn.trans hr
  obtain ⟨hf, hf'⟩ | ⟨r, u, u', hf, hf', hu⟩ := h.fetch <;>
    simp only [Machine.step, hr, hr', hf, hf', Bool.false_eq_true, if_false]
  · exact .next h
  · cases decode r with
    | instr i => exact hu.exec i
    | rejected e => cases e with
      | notACommand b => exact .refused _
      | notAProcedure p => exact .fault _

end Shadows
end Shadow

/-! ### The small encoding spaces (R34, R80 to R82, R91) -/

/-- A byte is its upper five bits and its lower three. -/
theorem extract_append_extract (b : Byte) : b.extractLsb' 3 5 ++ b.extractLsb' 0 3 = b := by
  apply BitVec.eq_of_toNat_eq
  rw [toNat_concat]
  simp only [BitVec.extractLsb'_toNat, Nat.shiftRight_eq_div_pow]
  have := b.isLt
  omega

theorem encode_of_decodeWire {b : Byte} {i : Instr} (h : decodeWire b = .instr i) :
    encode i = .wire b := by
  unfold decodeWire at h
  split_ifs at h with h40 hC0 h80 hon <;> cases h
  · rw [h40]; rfl
  · rw [hC0]; rfl
  · rw [h80]; rfl
  · have happ := extract_append_extract b
    rw [hon] at happ
    exact congrArg RawWord.wire happ

theorem encode_of_decodePhase {p : BitVec 3} {i : Instr} (h : decodePhase p = .instr i) :
    encode i = .phase p := by
  unfold decodePhase at h
  split at h <;> cases h
  all_goals next hp => exact congrArg RawWord.phase (BitVec.eq_of_toNat_eq hp).symm

/-- The upper five bits of the on commands (R82). -/
theorem extract_eq_ctrlOn_iff (b : Byte) :
    b.extractLsb' 3 5 = 0b10001#5 ↔ 0x88 ≤ b.toNat ∧ b.toNat ≤ 0x8F := by
  rw [← BitVec.toNat_inj, BitVec.extractLsb'_toNat, Nat.shiftRight_eq_div_pow]
  have := b.isLt
  simp only [BitVec.toNat_ofNat]
  omega

theorem decodeWire_accepts_iff (b : Byte) :
    (∃ i, decodeWire b = .instr i) ↔ (RawWord.wire b).wellFormed = true := by
  simp only [RawWord.wellFormed, decide_eq_true_eq, ← extract_eq_ctrlOn_iff]
  have hbyte (n : Nat) (hn : n < 2 ^ 8) : b = BitVec.ofNat 8 n ↔ b.toNat = n := by
    rw [← BitVec.toNat_inj, BitVec.toNat_ofNat, Nat.mod_eq_of_lt hn]
  rw [← hbyte 0x40 (by decide), ← hbyte 0xC0 (by decide), ← hbyte 0x80 (by decide)]
  unfold decodeWire
  split_ifs <;> simp_all

theorem decodePhase_accepts_iff (p : BitVec 3) :
    (∃ i, decodePhase p = .instr i) ↔ (RawWord.phase p).wellFormed = true := by
  simp only [RawWord.wellFormed, decide_eq_true_eq, decodePhase]
  have hlt := p.isLt
  interval_cases hp : p.toNat <;> simp

/-! ### The colon bit (R26, R151) -/

theorem forceColon_bit (e : BitVec 1) (b : Byte) {k : Nat} (hk : k < 8) :
    (forceColon e b).getLsbD k = if k = 7 then e.getLsbD 0 else b.getLsbD k := by
  have hset : colonMask.getLsbD k = decide (k = 7) := by revert k; decide
  have hclear : (0x7F#8).getLsbD k = !decide (k = 7) := by revert k; decide
  obtain rfl | rfl : e = 0#1 ∨ e = 1#1 := by revert e; decide
  · rw [forceColon, if_neg (by decide), BitVec.getLsbD_and, hclear]
    split <;> simp [*]
  · rw [forceColon, if_pos rfl, BitVec.getLsbD_or, hset]
    split <;> simp [*]

/-! ### The line levels at rest (R40, R41) -/

theorem pinLevel_append (T es : List Event) (p : PinId) :
    pinLevel (T ++ es) p = es.foldl (levelAfter p) (pinLevel T p) := List.foldl_append

/-! ### The obligations of 10_state -/

/-- Settles O59, by the outcomes of a phase row. -/
theorem sequencerFrame : Obligations.SequencerFrame := by
  intro i s t hi h
  cases phaseKind hi h with
  | row e ht => subst ht; simp
  | pinitEnd hi hk ht => subst hi ht; simp [hk, setInitialized]
  | pstartEnd hi hk ht =>
    subst hi
    obtain ⟨-, rfl⟩ | ⟨-, rfl⟩ := afterStart_next ht <;> simp
  | pshiftEnd hi hk ht => subst hi ht; simp [afterBit]
  | packEnd hi hk ht =>
    subst hi
    rw [countAck_eq] at ht
    obtain ⟨-, rfl⟩ | ⟨-, _, -, rfl⟩ := afterAck_next ht <;> simp
  | pstopEnd hi hk ht =>
    subst hi ht
    cases hf : s.further <;> simp [frameOver, hf]

/-- Settles O53. -/
theorem traceOnlyGrows : Obligations.TraceOnlyGrows := by
  intro s t hr h
  cases stepKind h with
  | reset hr' ht => simp [hr] at hr'
  | wait _ hb ht => simp [hb, ht]
  | phase _ hb i hi hd he => simpa [hb] using (phaseKind hi he).trace
  | request _ hb hn w rest hq he =>
    obtain ⟨-, htrace, -⟩ := requestFrame _ _ _ (format_of_decodeReq w) he
    simpa [hb] using htrace
  | wire _ hb i hi he =>
    obtain rfl | rfl | ⟨b, rfl⟩ := exec_wire_next hi he <;> simp [hb, byteAccepted]
  | lookup _ hb c he =>
    obtain ⟨f, -, rfl⟩ := exec_encode_next he
    simp [hb]

/-- Settles O46, by the kinds of a step: reset, waiting, a row of the sequencer, or an acceptance. -/
theorem stepKeepsTheInvariant : Obligations.StepKeepsTheInvariant := by
  intro s t h ht
  cases stepKind ht with
  | reset hr ht =>
    subst ht
    exact { State.resetWith_inv s.params (Nat.zero_lt_of_lt h.font) with }
  | wait hr hb ht => subst ht; exact h
  | phase hr hb i hi hd he =>
    obtain ⟨t', ht', hstep⟩ := flightStep ⟨hb, hr⟩ (h.position hb)
    cases ht.symm.trans ht'
    exact h.flightStep hb hstep
  | request hr hb hn w rest hq he =>
    have htaken : ({ s with hostReqs := rest } : State).Inv := { h with }
    exact htaken.request (format_of_decodeReq w) he
  | wire hr hb i hi he =>
    have htaken : ({ s with direct := none } : State).Inv := { h with }
    obtain ⟨b, hsend⟩ := exec_wire hi
    exact htaken.command ((hsend _).symm.trans he)
  | lookup hr hb c he =>
    obtain ⟨f, -, rfl⟩ := exec_encode_next he
    exact { h with }

/-- Settles O2, space by space. -/
theorem smallSpaceWordsEncodeTheirDecoding : Obligations.SmallSpaceWordsEncodeTheirDecoding := by
  intro r i h hreq
  cases r with
  | req w => exact absurd rfl hreq
  | wire b => exact encode_of_decodeWire h
  | phase p => exact encode_of_decodePhase h
  | lookup c => cases h; rfl

/-- Settles O3, space by space. -/
theorem decoderAcceptsExactlyTheTableWords : Obligations.DecoderAcceptsExactlyTheTableWords := by
  intro r
  cases r with
  | req w => exact ⟨fun _ => rfl, fun _ => ⟨_, rfl⟩⟩
  | wire b => exact decodeWire_accepts_iff b
  | phase p => exact decodePhase_accepts_iff p
  | lookup c => exact ⟨fun _ => rfl, fun _ => ⟨_, rfl⟩⟩

/-- Settles O33: the run of a loaded byte, its events written bit by bit. -/
theorem shiftRunSendsTheByteLowBitFirst : Obligations.ShiftRunSendsTheByteLowBitFirst := by
  refine ⟨rfl, fun s h hp hk hc => ?_⟩
  have hrun := pshift_runs h hp hk hc
  rwa [wshiftEvents, shiftLoop_eq_flatMap] at hrun

/-- Settles O49, by the outcomes of a step of a request in flight. -/
theorem eachStepEmitsOneOfTheEventsLeft : Obligations.EachStepEmitsOneOfTheEventsLeft := by
  refine ⟨fun s h hrun => ?_, fun s h => ⟨fun hb => ?_, fun h0 => ?_⟩⟩
  · have hpos := h.position hrun.1
    obtain ⟨t, ht, hstep⟩ := flightStep hrun hpos
    obtain ⟨e, he⟩ := (traceOnlyGrows s t hrun.2 ht).1 hrun.1
    exact ⟨t, e, ht, he, hstep.eventsLeft_add_one hpos⟩
  · simp [eventsLeft, (h.idle hb).1]
  · by_contra hb
    have := eventsLeft_pos (h.position (by simpa using hb))
    omega

/-- Settles O52, by the kinds of a step: only a row of the sequencer can write the lifecycle outside reset,
and of the rows only the last one of `PINIT` does. -/
theorem onlyInitEntersInitialized : Obligations.OnlyInitEntersInitialized := by
  intro s t hl h ht
  have hne : t.lifecycle ≠ s.lifecycle := by simp [hl, ht]
  cases stepKind h with
  | reset hr hreset => subst hreset; cases ht
  | wait hr hb hwait => subst hwait; exact absurd rfl hne
  | phase hr hb i hi hd he =>
    obtain ⟨-, -, -, -, -, -, -, -, -, -, hkeep, -⟩ := sequencerFrame i s t hi he
    obtain ⟨rfl, hk⟩ : i = .pinit ∧ s.step = 3 := by
      by_contra hother
      exact hne (hkeep (by tauto))
    obtain ⟨-, hp, rfl⟩ := exec_pinit_last hk he
    exact ⟨hb, hp, hk, rfl, rfl⟩
  | request hr hb hn w rest hq he =>
    obtain ⟨-, -, hkeep, -⟩ := requestFrame _ _ _ (format_of_decodeReq w) he
    exact absurd hkeep hne
  | wire hr hb i hi he =>
    obtain rfl | rfl | ⟨b, rfl⟩ := exec_wire_next hi he <;> exact absurd rfl hne
  | lookup hr hb c he =>
    obtain ⟨f, -, rfl⟩ := exec_encode_next he
    exact absurd rfl hne

/-- Settles O54: a state with the trace `T` and the state itself both shadow the state without a trace. -/
theorem traceIsNeverRead : Obligations.TraceIsNeverRead := by
  intro s T hr
  have hT : Shadows False T { s with trace := [] } { s with trace := T } :=
    ⟨s.status, s.ackAcc, by simp, by simp⟩
  have hs : Shadows False s.trace { s with trace := [] } s :=
    ⟨s.status, s.ackAcc, by simp, by simp⟩
  have hT := hT.step hr
  have hs := hs.step hr
  generalize step { s with trace := [] } = result₀ at hT hs
  generalize step { s with trace := T } = resultT at hT ⊢
  generalize step s = result at hs ⊢
  cases hs with
  | next h =>
    obtain ⟨c, a, hca, rfl⟩ := h
    obtain ⟨rfl, rfl⟩ := hca not_false
    cases hT with
    | next h =>
      obtain ⟨c, a, hca, rfl⟩ := h
      obtain ⟨rfl, rfl⟩ := hca not_false
      simp
  | fault r => cases hT; rfl
  | refused r => cases hT; rfl

/-- Settles O55: outside reset a state with other values shadows the state; reset reads neither. -/
theorem statusAndAckSteerNothing : Obligations.StatusAndAckSteerNothing := by
  intro s t c a h
  by_cases hr : s.resetIn = true
  · rw [step_of_reset hr] at h
    cases h
    exact ⟨_, step_of_reset hr, rfl⟩
  · have hs : Shadows True [] s { s with status := c, ackAcc := a } := ⟨c, a, by simp, rfl⟩
    have hs := hs.step (by simpa using hr)
    rw [h] at hs
    generalize step { s with status := c, ackAcc := a } = result at hs ⊢
    cases hs with
    | next h =>
      obtain ⟨c', a', -, rfl⟩ := h
      exact ⟨_, rfl, rfl⟩

/-- Settles O56, by the kinds of a step and the outcomes of a request. -/
theorem onlyShowRequestsWriteTheSegmentBuffer : Obligations.OnlyShowRequestsWriteTheSegmentBuffer := by
  intro s t hr h hne
  cases stepKind h with
  | reset hr' ht => simp [hr] at hr'
  | wait _ hb ht => exact absurd (by rw [ht]) hne
  | phase _ hb i hi hd he =>
    obtain ⟨-, -, -, -, hkeep, -⟩ := sequencerFrame i s t hi he
    exact absurd hkeep hne
  | request _ hb hn w rest hq he =>
    refine ⟨w, rest, hb, hq, ?_⟩
    cases requestKind (format_of_decodeReq w) he with
    | waits hb' ht => exact absurd (by rw [ht]) hne
    | fails hb' code ht => exact absurd (by rw [ht]) hne
    | pins hb' cp dp fs hi hl ht => exact absurd (by rw [ht]; rfl) hne
    | byte hb' hl level hi ht => exact absurd (by rw [ht]; rfl) hne
    | render hb' hl b hi ht =>
      obtain ⟨t0, t1, t2, t3, t4, hi⟩ | ⟨v, hi⟩ := hi
      · exact .inl ⟨t0, t1, t2, t3, t4, hi⟩
      · exact .inr (.inl ⟨v, hi⟩)
    | colon hb' hl enabled hi ht =>
      subst ht
      exact .inr (.inr ⟨enabled, hi, by simp⟩)
  | wire _ hb i hi he =>
    obtain rfl | rfl | ⟨b, rfl⟩ := exec_wire_next hi he <;> exact absurd rfl hne
  | lookup _ hb c he =>
    obtain ⟨f, -, rfl⟩ := exec_encode_next he
    exact absurd rfl hne

/-- Settles O6. -/
theorem specWordsDecodeAsWritten : Obligations.SpecWordsDecodeAsWritten := by
  unfold Obligations.SpecWordsDecodeAsWritten
  decide

/-- Settles O7. -/
theorem resetHoldsTheResetValues : Obligations.ResetHoldsTheResetValues := fun _ _ =>
  ⟨rfl, rfl, rfl, rfl, rfl, rfl, rfl, rfl, rfl, rfl, rfl, rfl, rfl, rfl, rfl, rfl, rfl, rfl⟩

/-- Settles O10, by what each fetch finds. -/
theorem stepRunsTheDecodedWord : Obligations.StepRunsTheDecodedWord :=
  ⟨fun s s' r i hr hf hd => by simp [step, hr, hf, hd], fun s => fetch_of_busy,
    fun s w rest => fetch_of_request, fun s b => fetch_of_direct, fun s c => fetch_of_direct⟩

/-- Settles O16: the buffer with the colon bit forced in entry 1. -/
theorem colonAcceptanceForcesTheColonBit : Obligations.ColonAcceptanceForcesTheColonBit := by
  intro e s hb hl
  refine ⟨{ s.seg with d1 := forceColon e s.seg.d1 }, ?_, rfl, rfl, rfl, ?_, fun k hk => ?_⟩
  · rw [← startShow_setSeg]
    exact (whenIdle_of_idle hb).trans (whenInitialized_of_initialized hl)
  · exact forceColon_bit e _ (by decide)
  · exact (forceColon_bit e _ (by omega)).trans (if_neg hk.ne)

/-- Settles O44: the last writes of the pin set-up and of a stop decide the levels. -/
theorem linesRestLowAfterInitAndHighAfterAFrame :
    Obligations.LinesRestLowAfterInitAndHighAfterAFrame := by
  intro T c d t bytes
  simp only [wframeEvents, ← List.append_assoc T, pinLevel_append]
  simp [pinSetupEvents, wstopEvents, levelAfter]

end Sys2Proof.Machine

/-! PROOFS. A request carried out whole neither reads nor writes the inputs of the block, so a run of requests
is carried out one request at a time; the obligation it settles stands at the end. -/

namespace Sys2Proof.Machine

/-! ### The inputs of the block under a whole request (R64, R70, log 2) -/

/-- `s` with `busy` and the inputs of the block (reset, direct call, pending requests) of `p`. -/
def withPort (p s : State) : State :=
  { s with busy := p.busy, resetIn := p.resetIn, direct := p.direct, hostReqs := p.hostReqs }

section WithPort
variable (p s : State)

@[simp] theorem withPort_params : (withPort p s).params = s.params := rfl
@[simp] theorem withPort_lifecycle : (withPort p s).lifecycle = s.lifecycle := rfl
@[simp] theorem withPort_seg : (withPort p s).seg = s.seg := rfl
@[simp] theorem withPort_selectedFont : selectedFont (withPort p s) = selectedFont s := rfl

@[simp] theorem sendFrame_withPort (bytes : List Byte) :
    sendFrame bytes (withPort p s) = withPort p (sendFrame bytes s) := rfl

theorem sendShow_withPort : sendShow (withPort p s) = withPort p (sendShow s) := by
  cases hm : s.params.frameMode <;> simp [sendShow, hm]

/-- The buffer `b` written and sent (R144). -/
theorem completed_sendShow_withPort (b : SegBuf) :
    completed (sendShow { withPort p s with seg := b }) =
      withPort p (completed (sendShow { s with seg := b })) :=
  congrArg completed (sendShow_withPort p { s with seg := b })

theorem wholeShow_withPort (render : FontTable → SegBuf) :
    wholeShow render (withPort p s) = withPort p (wholeShow render s) := by
  cases hf : selectedFont s with
  | none => simp [wholeShow, hf]
  | some f =>
    simp only [wholeShow, withPort_selectedFont, hf]
    exact completed_sendShow_withPort p s (render f)

theorem checkedBody_withPort {t t' : State} (ht : t' = withPort p t) :
    checkedBody (withPort p s) t' = withPort p (checkedBody s t) := by
  cases hl : s.lifecycle with
  | uninitialized => simp only [checkedBody, withPort_lifecycle, hl]; rfl
  | initialized => simpa [checkedBody, hl] using ht

theorem checkedInit_withPort (cp dp : PinId) (fs : Byte) :
    checkedInit cp dp fs (withPort p s) = withPort p (checkedInit cp dp fs s) := by
  cases hl : s.lifecycle with
  | initialized => simp only [checkedInit, withPort_lifecycle, hl]; rfl
  | uninitialized =>
    by_cases hfs : fs.toNat < s.params.nFonts <;>
      simp only [checkedInit, withPort_lifecycle, withPort_params, hl, hfs, if_true, if_false] <;> rfl

/-- A whole request neither reads nor writes what `withPort` sets. -/
theorem wholeRequest_withPort (i : Instr) :
    wholeRequest i (withPort p s) = withPort p (wholeRequest i s) := by
  cases i with
  | init cp dp fs => exact checkedInit_withPort p s cp dp fs
  | bright level => exact checkedBody_withPort p s rfl
  | digits t0 t1 t2 t3 t4 => exact checkedBody_withPort p s (wholeShow_withPort p s _)
  | int value => exact checkedBody_withPort p s (wholeShow_withPort p s _)
  | colon enabled => exact checkedBody_withPort p s (completed_sendShow_withPort p s _)
  | _ => rfl

theorem wholeRequest_keeps_port (i : Instr) : wholeRequest i s = withPort s (wholeRequest i s) :=
  wholeRequest_withPort s s i

@[simp] theorem wholeRequest_hostReqs (i : Instr) : (wholeRequest i s).hostReqs = s.hostReqs := by
  rw [wholeRequest_keeps_port]
  rfl

/-- Requests still to come do not change what a whole request does. -/
theorem wholeRequest_setHostReqs (i : Instr) (ws : List ReqWord) :
    wholeRequest i { s with hostReqs := ws } = { wholeRequest i s with hostReqs := ws } := by
  have hport := wholeRequest_withPort { s with hostReqs := ws } s i
  rw [wholeRequest_keeps_port s i]
  exact hport

theorem PortOpen.wholeRequest {s : State} (h : PortOpen s) (i : Instr) : PortOpen (wholeRequest i s) := by
  rw [wholeRequest_keeps_port]
  exact h

end WithPort

/-! ### A run of requests (R64, R206) -/

/-- Every state of a run keeps the invariant. -/
theorem State.Inv.runs {n : Nat} {s t : State} (h : s.Inv) (hrun : Runs n s t) : t.Inv := by
  induction n generalizing s with
  | zero => cases hrun; exact h
  | succ n ih =>
    obtain ⟨u, hstep, hrest⟩ := hrun
    exact ih (stepKeepsTheInvariant s u h hstep) hrest

/-- Settles O39, by induction on the pending requests: the first one runs to its whole request, which leaves
an idle block of the invariant with the others pending. -/
theorem everyRunOfRequestsEndsInTheWholeRun : Obligations.EveryRunOfRequestsEndsInTheWholeRun := by
  intro s hinv hport
  generalize hq : s.hostReqs = ws
  induction ws generalizing s with
  | nil =>
    have hs : { s with hostReqs := [] } = s := by rw [← hq]
    exact ⟨0, hs, hport.1⟩
  | cons w rest ih =>
    have hfirst := requestRunAgreesWithTheWholeRequest s w rest hinv hport hq
    have htaken : PortOpen { s with hostReqs := rest } := hport
    obtain ⟨n, hrest, hidle⟩ := ih _ (hinv.runs hfirst) (htaken.wholeRequest _) (wholeRequest_hostReqs ..)
    rw [← wholeRequest_setHostReqs] at hrest hidle
    exact ⟨_, runs_trans hfirst hrest, hidle⟩

end Sys2Proof.Machine

/-! PROOFS. The fields of a request word, what the bits without a meaning leave alone, and requests whose
operands show or send the same; the obligations of 30_encoding they settle stand at the end. -/

namespace Sys2Proof.Machine

/-! ### Which request an opcode is (R74 to R78, R84) -/

section Opcodes
variable {w : ReqWord}

theorem decodeReq_of_opcode0 (h : (reqOpcode w).toNat = 0) :
    decodeReq w = .init (reqByte 0 w) (reqByte 1 w) (reqByte 2 w) := by simp [decodeReq, h]

theorem decodeReq_of_opcode1 (h : (reqOpcode w).toNat = 1) : decodeReq w = .bright (reqByte 0 w) := by
  simp [decodeReq, h]

theorem decodeReq_of_opcode2 (h : (reqOpcode w).toNat = 2) :
    decodeReq w = .digits (reqByte 0 w) (reqByte 1 w) (reqByte 2 w) (reqByte 3 w) (reqByte 4 w) := by
  simp [decodeReq, h]

theorem decodeReq_of_opcode3 (h : (reqOpcode w).toNat = 3) :
    decodeReq w = .int (w.extractLsb' 0 16) := by simp [decodeReq, h]

theorem decodeReq_of_opcode4 (h : (reqOpcode w).toNat = 4) :
    decodeReq w = .colon (w.extractLsb' 0 1) := by simp [decodeReq, h]

theorem decodeReq_of_opcode5 (h : (reqOpcode w).toNat = 5) : decodeReq w = .reserved5 := by
  simp [decodeReq, h]

theorem decodeReq_of_opcode6 (h : (reqOpcode w).toNat = 6) : decodeReq w = .reserved6 := by
  simp [decodeReq, h]

theorem decodeReq_of_opcode7 (h : (reqOpcode w).toNat = 7) : decodeReq w = .reserved7 := by
  simp [decodeReq, h]

/-- The three opcodes from 5 on are the reserved ones (R84). -/
theorem decodeReq_of_reserved (h : 5 ≤ (reqOpcode w).toNat) :
    decodeReq w = .reserved5 ∨ decodeReq w = .reserved6 ∨ decodeReq w = .reserved7 := by
  obtain h | h | h : (reqOpcode w).toNat = 5 ∨ (reqOpcode w).toNat = 6 ∨ (reqOpcode w).toNat = 7 := by
    have := (reqOpcode w).isLt
    omega
  · exact .inl (decodeReq_of_opcode5 h)
  · exact .inr (.inl (decodeReq_of_opcode6 h))
  · exact .inr (.inr (decodeReq_of_opcode7 h))

end Opcodes

/-! ### The fields of an encoded word (R73 to R78) -/

/-- Byte `i` of a bit vector of any width, counted from its low end. -/
def byteAt {n : Nat} (i : Nat) (x : BitVec n) : Byte := x.extractLsb' (8 * i) 8

/-- The bytes of a request word are those of its operand field (R73). -/
theorem reqByte_concat (op : BitVec 3) (opnd : BitVec 40) {i : Nat} (h : i < 5) :
    reqByte i (op ++ opnd) = byteAt i opnd :=
  BitVec.extractLsb'_append_eq_of_add_le (by omega)

@[simp] theorem byteAt_zero_self (b : Byte) : byteAt 0 b = b := BitVec.extractLsb'_eq_self

@[simp] theorem byteAt_zero_concat {n : Nat} (x : BitVec n) (b : Byte) : byteAt 0 (x ++ b) = b :=
  BitVec.extractLsb'_append_eq_right

@[simp] theorem byteAt_succ_concat {n : Nat} (i : Nat) (x : BitVec n) (b : Byte) :
    byteAt (i + 1) (x ++ b) = byteAt i x :=
  BitVec.extractLsb'_append_eq_of_le (start := 8 * i + 8) (by omega)

/-- The field at the low end of an operand field, whatever stands above it. -/
theorem extractLsb'_zero_concat {l m n : Nat} (op : BitVec l) (ignored : BitVec m) (x : BitVec n) :
    (op ++ (ignored ++ x)).extractLsb' 0 n = x :=
  (BitVec.extractLsb'_append_eq_of_add_le (by omega)).trans BitVec.extractLsb'_append_eq_right

theorem toNat_reqOpcode_concat (op : BitVec 3) (opnd : BitVec 40) :
    (reqOpcode (op ++ opnd)).toNat = op.toNat := by rw [reqOpcode_concat]

theorem decode_encode_init (cp dp : PinId) (fs : Byte) :
    decode (encode (.init cp dp fs)) = .instr (.init cp dp fs) := by
  refine congrArg Decoded.instr ((decodeReq_of_opcode0 (toNat_reqOpcode_concat 0 _)).trans ?_)
  simp [reqByte_concat]

theorem decode_encode_bright (level : Byte) :
    decode (encode (.bright level)) = .instr (.bright level) := by
  refine congrArg Decoded.instr ((decodeReq_of_opcode1 (toNat_reqOpcode_concat 1 _)).trans ?_)
  simp [reqByte_concat]

theorem decode_encode_digits (t0 t1 t2 t3 t4 : Byte) :
    decode (encode (.digits t0 t1 t2 t3 t4)) = .instr (.digits t0 t1 t2 t3 t4) := by
  refine congrArg Decoded.instr ((decodeReq_of_opcode2 (toNat_reqOpcode_concat 2 _)).trans ?_)
  simp [reqByte_concat]

theorem decode_encode_int (value : BitVec 16) :
    decode (encode (.int value)) = .instr (.int value) :=
  congrArg Decoded.instr ((decodeReq_of_opcode3 (toNat_reqOpcode_concat 3 _)).trans
    (congrArg Instr.int (extractLsb'_zero_concat ..)))

theorem decode_encode_colon (enabled : BitVec 1) :
    decode (encode (.colon enabled)) = .instr (.colon enabled) :=
  congrArg Decoded.instr ((decodeReq_of_opcode4 (toNat_reqOpcode_concat 4 _)).trans
    (congrArg Instr.colon (extractLsb'_zero_concat ..)))

/-- The eight on commands (R82). -/
theorem decode_encode_cmdCtrlOn (k : BitVec 3) :
    decode (encode (.cmdCtrlOn k)) = .instr (.cmdCtrlOn k) := by
  revert k
  decide

/-! ### Fields in plain division, and the bits that have a meaning (R79, R85) -/

/-- A field is a plain unsigned number (R79). -/
theorem extractLsb'_eq_ofNat {n : Nat} (start len : Nat) (x : BitVec n) :
    x.extractLsb' start len = BitVec.ofNat len (x.toNat / 2 ^ start) :=
  congrArg (BitVec.ofNat len) (Nat.shiftRight_eq_div_pow ..)

theorem reqByte_eq_ofNat (i : Nat) (w : ReqWord) :
    reqByte i w = BitVec.ofNat 8 (w.toNat / 2 ^ (8 * i)) := extractLsb'_eq_ofNat ..

/-- Two words that agree under a mask agree in every field that the mask covers. -/
theorem extractLsb'_eq_of_and_eq {n start len : Nat} {w w' mask : BitVec n}
    (h : w &&& mask = w' &&& mask) (hmask : mask.extractLsb' start len = BitVec.allOnes len) :
    w.extractLsb' start len = w'.extractLsb' start len := by
  have hfield := congrArg (BitVec.extractLsb' start len) h
  simpa [BitVec.extractLsb'_and, hmask] using hfield

/-- The opcode's bits have a meaning in every request (R73). -/
theorem meaningfulBits_opcode (op : BitVec 3) :
    (meaningfulBits op).extractLsb' 40 3 = BitVec.allOnes 3 := by
  revert op
  decide

/-- Request words that agree in the bits with a meaning are the same request (R85). -/
theorem decodeReq_eq_of_meaningfulBits {w w' : ReqWord}
    (h : w &&& meaningfulBits (reqOpcode w) = w' &&& meaningfulBits (reqOpcode w)) :
    decodeReq w = decodeReq w' := by
  have hop : reqOpcode w = reqOpcode w' := extractLsb'_eq_of_and_eq h (meaningfulBits_opcode _)
  have hlt := (reqOpcode w).isLt
  simp only [decodeReq, ← hop]
  unfold meaningfulBits at h
  interval_cases (reqOpcode w).toNat
  · have hbyte (i : Nat) (hi : i < 3) : reqByte i w = reqByte i w' :=
      extractLsb'_eq_of_and_eq h (by revert i; decide)
    simp [hbyte]
  · exact congrArg Instr.bright (extractLsb'_eq_of_and_eq h (by decide))
  · have hbyte (i : Nat) (hi : i < 5) : reqByte i w = reqByte i w' :=
      extractLsb'_eq_of_and_eq h (by revert i; decide)
    simp [hbyte]
  · exact congrArg Instr.int (extractLsb'_eq_of_and_eq h (by decide))
  · exact congrArg Instr.colon (extractLsb'_eq_of_and_eq h (by decide))
  all_goals rfl

/-! ### Requests while busy, reserved opcodes, one-byte frames (R72, R84, R114, R142) -/

/-- While busy a request is not accepted (R72). -/
theorem exec_request_of_busy {i : Instr} {s : State} (hi : i.format = .req) (hb : s.busy = true) :
    exec i s = .next s := by
  cases i with
  | init _ _ _ | bright _ | digits _ _ _ _ _ | int _ | colon _ | reserved5 | reserved6 | reserved7 =>
    exact whenIdle_of_busy hb
  | _ => cases hi

theorem rejectOpcode_of_idle {s : State} (hb : s.busy = false) :
    rejectOpcode s = .next { s with status := .illegal } := whenIdle_of_idle hb

theorem sendCommand_accepted {b : Byte} {s : State} (hb : s.busy = false)
    (hl : s.lifecycle = .initialized) : sendCommand b s = .next (byteAccepted b s) :=
  (whenIdle_of_idle hb).trans (whenInitialized_of_initialized hl)

/-- `BRIGHT` sends its control byte as a command byte is sent (R142). -/
theorem exec_bright (level : Byte) (s : State) :
    exec (.bright level) s = sendCommand (ctrlByte (clampLevel level)) s := rfl

theorem ctrlByte_clampLevel (level : Byte) : ctrlByte (clampLevel level) =
    if level = 0 then 0x80#8 else 0x88#8 ||| BitVec.ofNat 8 (min level.toNat 8 - 1) := by
  have hzero : clampLevel level = 0 ↔ level = 0 := by
    unfold clampLevel
    bv_omega
  simp only [ctrlByte, hzero]
  rfl

theorem clampLevel_of_large {level : Byte} (h : 8 < level.toNat) : clampLevel level = clampLevel 8 :=
  min_eq_right h.le

/-- The byte of an on command as a number (R82). -/
theorem cmdCtrlOnByte_eq_ofNat (k : BitVec 3) :
    cmdCtrlOnByte (k.setWidth 8) = BitVec.ofNat 8 (0x88 + k.toNat) := by
  revert k
  decide

/-! ### Requests that show the same (R86, R90, R145, R148) -/

/-- A request that shows what `render` makes of the selected font. -/
def execShow (render : FontTable → SegBuf) (s : State) : Result :=
  whenIdle s <| whenInitialized s <| withFont s fun f => .next (startShow { s with seg := render f })

theorem exec_digits (t0 t1 t2 t3 t4 : Byte) (s : State) :
    exec (.digits t0 t1 t2 t3 t4) s = execShow (fun f => renderText f t0 t1 t2 t3 t4) s := rfl

theorem exec_int (v : BitVec 16) (s : State) :
    exec (.int v) s = execShow (fun f => renderInt f v s.seg) s := rfl

/-- Only what is made of the selected font matters. -/
theorem execShow_congr {render render' : FontTable → SegBuf} {s : State}
    (h : ∀ f, selectedFont s = some f → render f = render' f) :
    execShow render s = execShow render' s := by
  cases hf : selectedFont s with
  | none => simp [execShow, withFont, hf]
  | some f => simp [execShow, withFont, hf, h f hf]

/-- A colon marker other than `':'` sets no colon bit (R145). -/
theorem withMarker_of_ne {m : Byte} (h : m ≠ 0x3A#8) (b : Byte) : withMarker m b = b := if_neg h

/-- A character outside the font's range is dark (R100). -/
theorem encodeChar_of_outside {f : FontTable} {c : Byte}
    (h : ¬ (f.baseChar.toNat ≤ c.toNat ∧ c.toNat < f.baseChar.toNat + f.symbolCount)) :
    encodeChar f c = 0 := if_neg h

/-- The character of a decimal digit (R148). -/
theorem charZero_add_ofNat (d : Nat) : charZero + BitVec.ofNat 8 d = BitVec.ofNat 8 (0x30 + d) :=
  (BitVec.ofNat_add ..).symm

/-- The four low decimal digits of the value, as a text without colon (R148, R149). -/
theorem renderInt_eq_renderText (f : FontTable) (v : BitVec 16) (b : SegBuf) {m : Byte} (hm : m ≠ 0x3A#8) :
    renderInt f v b =
      renderText f (BitVec.ofNat 8 (0x30 + v.toNat % 10000 / 1000))
        (BitVec.ofNat 8 (0x30 + v.toNat % 10000 / 100 % 10)) m
        (BitVec.ofNat 8 (0x30 + v.toNat % 10000 / 10 % 10))
        (BitVec.ofNat 8 (0x30 + v.toNat % 10000 % 10)) := by
  have hthousands : v.toNat % 10000 / 1000 = v.toNat / 10 / 10 / 10 % 10 := by omega
  have hhundreds : v.toNat % 10000 / 100 % 10 = v.toNat / 10 / 10 % 10 := by omega
  have htens : v.toNat % 10000 / 10 % 10 = v.toNat / 10 % 10 := by omega
  have hones : v.toNat % 10000 % 10 = v.toNat % 10 := by omega
  simp only [renderInt, renderLoop, renderText, withMarker_of_ne hm, charZero_add_ofNat, SegBuf.set,
    hthousands, hhundreds, htens, hones]

/-! ### The obligations of 30_encoding -/

/-- Settles O1, row by row. -/
theorem decodeOfEncodeIsTheInstruction : Obligations.DecodeOfEncodeIsTheInstruction := by
  intro i
  cases i with
  | init cp dp fs => exact decode_encode_init cp dp fs
  | bright level => exact decode_encode_bright level
  | digits t0 t1 t2 t3 t4 => exact decode_encode_digits t0 t1 t2 t3 t4
  | int value => exact decode_encode_int value
  | colon enabled => exact decode_encode_colon enabled
  | cmdCtrlOn k => exact decode_encode_cmdCtrlOn k
  | _ => rfl

/-- Settles O4, opcode by opcode. -/
theorem requestFieldsAreReadFromTheirBits : Obligations.RequestFieldsAreReadFromTheirBits := by
  intro w
  rw [← reqOpcode_toNat]
  refine ⟨fun h => ?_, fun h => ?_, fun h => ?_, fun h => ?_, fun h => ?_, fun h => ?_, fun h => ?_,
    fun h => ?_⟩
  · simp [decode, decodeReq_of_opcode0 h, reqByte_eq_ofNat]
  · simp [decode, decodeReq_of_opcode1 h, reqByte_eq_ofNat]
  · simp [decode, decodeReq_of_opcode2 h, reqByte_eq_ofNat]
  · simp [decode, decodeReq_of_opcode3 h, extractLsb'_eq_ofNat]
  · simp [decode, decodeReq_of_opcode4 h, extractLsb'_eq_ofNat]
  · rw [decode, decodeReq_of_opcode5 h]
  · rw [decode, decodeReq_of_opcode6 h]
  · rw [decode, decodeReq_of_opcode7 h]

/-- Settles O5: the two words are one request, and the rest of the state is the same. -/
theorem ignoredOperandBitsHaveNoEffect : Obligations.IgnoredOperandBitsHaveNoEffect := by
  intro s w w' rest hport h
  have hw : PortOpen { s with hostReqs := w :: rest } := hport
  have hw' : PortOpen { s with hostReqs := w' :: rest } := hport
  rw [step_request hw rfl, step_request hw' rfl, decodeReq_eq_of_meaningfulBits h]

/-- Settles O11: while busy only a row of the sequencer runs, and it keeps the host's list. -/
theorem busyBlockTakesNoRequest : Obligations.BusyBlockTakesNoRequest := by
  refine ⟨fun i s => exec_request_of_busy, fun s t hb hr h => ?_⟩
  cases stepKind h with
  | reset hr' ht => simp [hr] at hr'
  | wait _ hb' ht => rw [ht]
  | phase _ _ i hi hd he =>
    obtain ⟨-, -, -, -, -, hkeep, -⟩ := sequencerFrame i s t hi he
    exact hkeep
  | request _ hb' hn w rest hq he => simp [hb] at hb'
  | wire _ hb' i hi he => simp [hb] at hb'
  | lookup _ hb' c he => simp [hb] at hb'

/-- Settles O21: the operands are read only through the clamped level, the marker test and the look-up. -/
theorem aliasingOperandsActAlike : Obligations.AliasingOperandsActAlike := by
  refine ⟨fun l s hl => ?_, fun t0 t1 t3 t4 m m' s hm hm' => ?_,
    fun f a a' t0 t1 m t3 t4 s hf ha ha' => ?_⟩
  · rw [exec_bright, exec_bright, clampLevel_of_large hl]
  · simp only [exec_digits, renderText, withMarker_of_ne hm, withMarker_of_ne hm']
  · have hsame (g : FontTable) (hg : selectedFont s = some g) : encodeChar g a = encodeChar g a' := by
      obtain rfl : f = g := Option.some.inj (hf.symm.trans hg)
      rw [encodeChar_of_outside ha, encodeChar_of_outside ha']
    simp only [exec_digits]
    refine ⟨?_, ?_, ?_, ?_⟩ <;>
      exact execShow_congr fun g hg => by rw [renderText, renderText, hsame g hg]

/-- Settles O22: both requests show the buffer of the four decimal digits. -/
theorem intEqualsDigitsOfItsDecimalText : Obligations.IntEqualsDigitsOfItsDecimalText := by
  intro v m s hm
  have hmod : (BitVec.ofNat 16 (v.toNat % 10000)).toNat % 10000 = v.toNat % 10000 := by
    rw [BitVec.toNat_ofNat]
    omega
  simp only [exec_int, exec_digits, renderInt_eq_renderText _ _ _ hm, hmod, and_self]

/-- Settles O13: `BRIGHT` sends its control byte as a frame of its own. -/
theorem brightAcceptanceLoadsTheControlByte : Obligations.BrightAcceptanceLoadsTheControlByte := by
  intro level s hb hl
  rw [exec_bright, sendCommand_accepted hb hl, ctrlByte_clampLevel]

/-- Settles O17: every word with a reserved opcode decodes to one of the three instructions. -/
theorem reservedOpcodesAreIllegal : Obligations.ReservedOpcodesAreIllegal := by
  refine ⟨fun s hb => ⟨rejectOpcode_of_idle hb, rejectOpcode_of_idle hb, rejectOpcode_of_idle hb⟩,
    fun s w rest hport hq h => ?_⟩
  rw [step_request hport hq]
  obtain hw | hw | hw := decodeReq_of_reserved h <;> rw [hw] <;>
    exact rejectOpcode_of_idle (s := { s with hostReqs := rest }) hport.1

/-- Settles O26: each of the four sends its byte, that of an on command written as a number. -/
theorem wireCommandsStartTheirFrame : Obligations.WireCommandsStartTheirFrame := by
  intro s hb hl
  refine ⟨sendCommand_accepted hb hl, sendCommand_accepted hb hl, sendCommand_accepted hb hl,
    fun k => ?_⟩
  rw [← cmdCtrlOnByte_eq_ofNat]
  exact sendCommand_accepted hb hl

end Sys2Proof.Machine

/-! PROOFS. The character look-up and the requests that use it: `ENCODE` by itself, the acceptance of `DIGITS`
and `INT`, and the frame of the direct calls; the obligations of 40_font_encoder stand at the end. -/

namespace Sys2Proof.Machine

/-! ### The look-up (R100, R106) -/

theorem encodeChar_of_inside {f : FontTable} {c : Byte} {k : Nat} (hk : k < f.patterns.length)
    (hc : c.toNat = f.baseChar.toNat + k) : encodeChar f c = f.patterns[k] := by
  have hrange : f.baseChar.toNat ≤ c.toNat ∧ c.toNat < f.baseChar.toNat + f.symbolCount := by
    rw [FontTable.symbolCount]
    omega
  rw [encodeChar, if_pos hrange, hc, Nat.add_sub_cancel_left]
  exact List.getD_eq_getElem _ _ hk

theorem exec_encode_of_selected {c : Byte} {s : State} {f : FontTable} (h : selectedFont s = some f) :
    exec (.encode c) s = .next { s with lookupOut := encodeChar f c } := withFont_of_selected h

/-! ### A show request accepted (R120, R144, R145, R148) -/

theorem execShow_accepted {render : FontTable → SegBuf} {s : State} {f : FontTable}
    (hb : s.busy = false) (hl : s.lifecycle = .initialized) (hf : selectedFont s = some f) :
    execShow render s = .next (showAccepted (render f) s) := by
  rw [execShow, whenIdle_of_idle hb, whenInitialized_of_initialized hl, withFont_of_selected hf,
    startShow_setSeg]

/-- The digits of `INT` by their place value; the buffer's earlier contents do not show (R148). -/
theorem renderInt_eq_placeValues (f : FontTable) (v : BitVec 16) (b : SegBuf) :
    renderInt f v b =
      ⟨encodeChar f (BitVec.ofNat 8 (0x30 + v.toNat / 1000 % 10)),
        encodeChar f (BitVec.ofNat 8 (0x30 + v.toNat / 100 % 10)),
        encodeChar f (BitVec.ofNat 8 (0x30 + v.toNat / 10 % 10)),
        encodeChar f (BitVec.ofNat 8 (0x30 + v.toNat % 10))⟩ := by
  simp only [renderInt, renderLoop, SegBuf.set, charZero_add_ofNat, Nat.div_div_eq_div_mul]

/-! ### The obligations of 40_font_encoder -/

/-- Settles O60: a command byte waits, misuses or starts its one-byte frame; a look-up writes its output. -/
theorem directCallFrame : Obligations.DirectCallFrame := by
  refine ⟨fun i s t hi h => ?_, fun c s t h => ?_⟩
  · obtain rfl | rfl | ⟨b, rfl⟩ := exec_wire_next hi h
    · simp
    · simp
    · simp [byteAccepted]
  · obtain ⟨f, -, rfl⟩ := exec_encode_next h
    rfl

/-- Settles O14: `DIGITS` shows the rendered text. -/
theorem digitsAcceptanceRendersTheText : Obligations.DigitsAcceptanceRendersTheText :=
  fun t0 t1 t2 t3 t4 s _ hb hl hf => (exec_digits t0 t1 t2 t3 t4 s).trans (execShow_accepted hb hl hf)

/-- Settles O15: `INT` shows the four digits by their place value. -/
theorem intAcceptanceRendersTheDigits : Obligations.IntAcceptanceRendersTheDigits := by
  intro v s f hb hl hf
  rw [exec_int, execShow_accepted hb hl hf, renderInt_eq_placeValues]

/-- Settles O24: inside, below and above the range for every font, then the lines for `FONT_DEC`. -/
theorem fontLookupMeetsItsProperties : Obligations.FontLookupMeetsItsProperties := by
  refine ⟨fun f c k hk hc => encodeChar_of_inside hk hc, fun f c hbelow => ?_, fun f c habove => ?_,
    by decide, by decide⟩
  · exact encodeChar_of_outside fun hrange => by omega
  · exact encodeChar_of_outside fun hrange => by omega

/-- Settles O25: the output is the look-up in the selected font. -/
theorem encodeReturnsThePattern : Obligations.EncodeReturnsThePattern :=
  fun _ _ _ hf => exec_encode_of_selected hf

end Sys2Proof.Machine

/-! PROOFS. The rows of the sequencer's tables, its procedures as runs from a given position, the waveform of a
frame, the checks of a request, and that the block neither stops nor stays busy for ever; the obligations of
41_wire_transport they settle stand at the end. -/

namespace Sys2Proof.Machine

/-! ### One row of a phase's table (R121 to R125) -/

/-- `s` with a request in flight at position (`p`, `k`). -/
def atPosition (p : Phase) (k : BitVec 3) (s : State) : State :=
  { s with busy := true, phase := p, step := k }

/-- A busy state at a known position is of the form `atPosition p k u`, on which a phase row computes. -/
theorem exists_eq_atPosition {p : Phase} {k : BitVec 3} {s : State} (hb : s.busy = true)
    (hp : s.phase = p) (hk : s.step = k) : ∃ u, s = atPosition p k u :=
  ⟨s, by simp [atPosition, ← hb, ← hp, ← hk]⟩

theorem afterBit_of_eighth {s : State} (h : s.bitCnt + 1 = 8) :
    afterBit s =
      { s with shreg := s.shreg >>> 1, bitCnt := s.bitCnt + 1, phase := .pack, step := 0 } := by
  have h8 : s.bitCnt + 1 = 8#4 := h
  rw [afterBit, if_pos h8]
  rfl

theorem afterBit_of_not_eighth {s : State} (h : s.bitCnt + 1 ≠ 8) :
    afterBit s =
      { s with shreg := s.shreg >>> 1, bitCnt := s.bitCnt + 1, phase := .pshift, step := 0 } := by
  have h8 : s.bitCnt + 1 ≠ 8#4 := h
  rw [afterBit, if_neg h8]
  rfl

theorem frameOver_of_nothing {s : State} (h : s.further = .nothing) : frameOver s = finish s := by
  simp [frameOver, h]

theorem frameOver_of_addrFrame {s : State} (h : s.further = .addrFrame) :
    frameOver s = startFrame [cmdAddrByte] .segFrame s := by
  simp [frameOver, h]

theorem frameOver_of_segFrame {s : State} (h : s.further = .segFrame) :
    frameOver s = startFrame s.seg.toList .nothing s := by
  simp [frameOver, h]

/-! ### The waveform of a frame (R117) -/

/-- From any levels of the lines the data line is quiet while the clock is high, and the clock rises `n`
times. -/
def DataQuiet (c d : PinId) (es : List Event) (n : Nat) : Prop :=
  ∀ l, dataChangesWhileHigh c d l es = [] ∧ clockRises c d l es = n

section Waveform
variable {c d : PinId}

theorem DataQuiet.append {es es' : List Event} {m n : Nat} (h : DataQuiet c d es m)
    (h' : DataQuiet c d es' n) : DataQuiet c d (es ++ es') (m + n) := by
  intro l
  obtain ⟨hdata, hrises⟩ := h l
  obtain ⟨hdata', hrises'⟩ := h' (linesEnd c d l es)
  rw [dataChangesWhileHigh_append, clockRises_append, hdata, hdata', hrises, hrises']
  exact ⟨rfl, rfl⟩

theorem dataQuiet_nil : DataQuiet c d [] 0 := fun _ => ⟨rfl, rfl⟩

/-- A data bit is put on the line while the clock is low (R112). -/
theorem dataQuiet_bitEvents (h : c ≠ d) (t : Nat) (x : Bool) : DataQuiet c d (bitEvents c d t x) 1 := by
  intro l
  simp [bitEvents, dataChangesWhileHigh, clockRises, linesAfter, h, h.symm]

theorem dataQuiet_shiftLoop (h : c ≠ d) (t n : Nat) (r : Byte) :
    DataQuiet c d (shiftLoop c d t n r) n := by
  induction n generalizing r with
  | zero => exact dataQuiet_nil
  | succ n ih =>
    have hquiet := (dataQuiet_bitEvents h t (r.getLsbD 0)).append (ih (r >>> 1))
    rwa [Nat.add_comm] at hquiet

/-- The acknowledgement does not touch the data line (R113). -/
theorem dataQuiet_wackEvents (h : c ≠ d) (t : Nat) : DataQuiet c d (wackEvents c t) 1 := by
  intro l
  simp [wackEvents, dataChangesWhileHigh, clockRises, linesAfter, h]

theorem dataQuiet_byteEvents (h : c ≠ d) (t : Nat) (b : Byte) : DataQuiet c d (byteEvents c d t b) 9 :=
  (dataQuiet_shiftLoop h t 8 b).append (dataQuiet_wackEvents h t)

theorem dataQuiet_flatMap_byteEvents (h : c ≠ d) (t : Nat) (bytes : List Byte) :
    DataQuiet c d (bytes.flatMap (byteEvents c d t)) (9 * bytes.length) := by
  induction bytes with
  | nil => exact dataQuiet_nil
  | cons b bytes ih =>
    rw [List.length_cons, Nat.mul_succ, Nat.add_comm]
    exact (dataQuiet_byteEvents h t b).append ih

/-- From both lines at one level the start condition is one fall of the data line (R110). -/
theorem wstartEvents_waveform (h : c ≠ d) (t : Nat) (level : Bool) :
    dataChangesWhileHigh c d ⟨level, level⟩ (wstartEvents c d t) = [false] ∧
    clockRises c d ⟨level, level⟩ (wstartEvents c d t) = if level then 0 else 1 := by
  cases level <;> simp [wstartEvents, dataChangesWhileHigh, clockRises, linesAfter, h, h.symm]

/-- From any levels the stop condition is one rise of the data line, and leaves both lines high (R111). -/
theorem wstopEvents_waveform (h : c ≠ d) (t : Nat) (l : Lines) :
    dataChangesWhileHigh c d l (wstopEvents c d t) = [true] ∧
    clockRises c d l (wstopEvents c d t) = 1 ∧ linesEnd c d l (wstopEvents c d t) = ⟨true, true⟩ := by
  simp [wstopEvents, dataChangesWhileHigh, clockRises, linesAfter, linesEnd, h, h.symm]

end Waveform

/-! ### The checks of a request (R139, R178, R179) -/

/-- What the acceptance of a request sets and what it leaves alone (R120). -/
def Accepted (s t : State) : Prop :=
  t.busy = true ∧ t.status = s.status ∧ t.trace = s.trace ∧ (t.phase = .pinit ∨ t.phase = .pstart) ∧
    t.step = 0

theorem accepted_startFrame (bytes : List Byte) (m : Further) (s : State) :
    Accepted s (startFrame bytes m s) := ⟨rfl, rfl, rfl, .inr rfl, rfl⟩

theorem accepted_startPinSetup (cp dp : PinId) (fs : Byte) (s : State) :
    Accepted s (startPinSetup cp dp fs s) := ⟨rfl, rfl, rfl, .inl rfl, rfl⟩

theorem accepted_startShow (b : SegBuf) (s : State) : Accepted s (startShow { s with seg := b }) := by
  cases hm : s.params.frameMode <;> simp only [startShow, hm] <;>
    exact accepted_startFrame _ _ { s with seg := b }

/-- The first error that applies, if any, is the whole effect of the request; if none does it is accepted. -/
def ChecksFirst (i : Instr) (s : State) : Prop :=
  (∀ c, firstError i s = some c → exec i s = .next { s with status := c }) ∧
    (firstError i s = none → ∃ t, exec i s = .next t ∧ Accepted s t)

theorem checksFirst_of_error {i : Instr} {s : State} {code : Status}
    (herr : firstError i s = some code) (h : exec i s = .next { s with status := code }) :
    ChecksFirst i s := by
  refine ⟨fun c hc => ?_, fun hnone => ?_⟩
  · obtain rfl : code = c := Option.some.inj (herr.symm.trans hc)
    exact h
  · simp [herr] at hnone

theorem checksFirst_of_accepted {i : Instr} {s t : State} (hnone : firstError i s = none)
    (h : exec i s = .next t) (ht : Accepted s t) : ChecksFirst i s :=
  ⟨fun c hc => by simp [hnone] at hc, fun _ => ⟨t, h, ht⟩⟩

/-- A content or brightness request has the lifecycle check alone (R139, R172). -/
theorem checksFirst_of_body {i : Instr} {s t : State} {r : Result} (hb : s.busy = false)
    (hexec : exec i s = whenIdle s (whenInitialized s r)) (hr : r = .next t) (ht : Accepted s t)
    (hmisuse : s.lifecycle = .uninitialized → firstError i s = some .misuse)
    (hnone : s.lifecycle = .initialized → firstError i s = none) : ChecksFirst i s := by
  rw [whenIdle_of_idle hb] at hexec
  cases hl : s.lifecycle with
  | uninitialized =>
    exact checksFirst_of_error (hmisuse hl) (hexec.trans (whenInitialized_of_uninitialized hl))
  | initialized =>
    exact checksFirst_of_accepted (hnone hl)
      (hexec.trans ((whenInitialized_of_initialized hl).trans hr)) ht

/-- A request that shows what it makes of the selected font (R144, R145, R148). -/
theorem checksFirst_of_execShow {i : Instr} {s : State} {render : FontTable → SegBuf}
    (hb : s.busy = false) (hfont : s.fontSel.toNat < s.params.nFonts)
    (hexec : exec i s = execShow render s)
    (hmisuse : s.lifecycle = .uninitialized → firstError i s = some .misuse)
    (hnone : s.lifecycle = .initialized → firstError i s = none) : ChecksFirst i s := by
  obtain ⟨f, hf⟩ := selectedFont_of_lt hfont
  exact checksFirst_of_body hb hexec (withFont_of_selected hf) (accepted_startShow ..) hmisuse hnone

theorem checksFirst_init (cp dp : PinId) (fs : Byte) {s : State} (hb : s.busy = false) :
    ChecksFirst (.init cp dp fs) s := by
  cases hl : s.lifecycle with
  | initialized =>
    exact checksFirst_of_error (by simp [firstError, hl]) (exec_init_of_initialized hb hl)
  | uninitialized =>
    by_cases hfs : fs.toNat < s.params.nFonts
    · exact checksFirst_of_accepted (by simp [firstError, hl, hfs]) (exec_init_of_font hb hl hfs)
        (accepted_startPinSetup cp dp fs s)
    · exact checksFirst_of_error (by simp [firstError, hl, hfs]) (exec_init_of_missingFont hb hl hfs)

/-! ### What a step answers (R119, R126) -/

theorem sendCommand_answers (b : Byte) (s : State) : ∃ t, sendCommand b s = .next t := by
  cases hb : s.busy with
  | true => exact ⟨_, whenIdle_of_busy hb⟩
  | false =>
    cases hl : s.lifecycle with
    | uninitialized => exact ⟨_, (whenIdle_of_idle hb).trans (whenInitialized_of_uninitialized hl)⟩
    | initialized => exact ⟨_, sendCommand_accepted hb hl⟩

/-- A byte that is a command is sent, whatever the state (R82, log 5). -/
theorem exec_decodeWire_answers {b : Byte} (h : (RawWord.wire b).wellFormed = true) (s : State) :
    ∃ i t, decode (.wire b) = .instr i ∧ exec i s = .next t := by
  obtain ⟨i, hi⟩ := (decodeWire_accepts_iff b).2 h
  obtain ⟨b', hsend⟩ := exec_wire (format_of_decodeWire hi)
  obtain ⟨t, ht⟩ := sendCommand_answers b' s
  exact ⟨i, t, hi, (hsend s).trans ht⟩

theorem exec_encode_answers (c : Byte) {s : State} (h : s.fontSel.toNat < s.params.nFonts) :
    ∃ t, exec (.encode c) s = .next t := by
  obtain ⟨f, hf⟩ := selectedFont_of_lt h
  exact ⟨_, exec_encode_of_selected hf⟩

/-- A directly called row answers, a look-up in the selected font and a byte that is a command. -/
theorem exec_direct_answers {d : DirectWord} {s : State} (hfont : s.fontSel.toNat < s.params.nFonts)
    (hd : ∀ b, d = .wire b → (RawWord.wire b).wellFormed = true) :
    ∃ i t, decode d.raw = .instr i ∧ exec i s = .next t := by
  cases d with
  | wire b => exact exec_decodeWire_answers (hd b rfl) s
  | lookup c =>
    obtain ⟨t, ht⟩ := exec_encode_answers c hfont
    exact ⟨_, t, rfl, ht⟩

theorem step_of_nothing {s : State} (h : PortOpen s) (hq : s.hostReqs = []) : step s = .next s := by
  obtain ⟨hb, hr, hd⟩ := h
  simp [step, hr, fetch_of_nothing hb hd hq]

/-- An idle block outside reset waits, runs a direct call or takes a request (R72, R200). -/
theorem step_answers_of_idle {s : State} (h : s.Inv) (hd : NoBadDirect s) (hr : s.resetIn = false)
    (hb : s.busy = false) : ∃ t, step s = .next t := by
  have hstep := stepRunsTheDecodedWord.1
  cases hdir : s.direct with
  | some d =>
    obtain ⟨i, t, hi, ht⟩ := exec_direct_answers (d := d) (s := { s with direct := none }) h.font
      (fun b hdb => hd b (by rw [hdir, hdb]))
    exact ⟨t, (hstep _ _ _ i hr (fetch_of_direct hb hdir) hi).trans ht⟩
  | none =>
    have hport : PortOpen s := ⟨hb, hr, hdir⟩
    cases hq : s.hostReqs with
    | nil => exact ⟨s, step_of_nothing hport hq⟩
    | cons w rest =>
      have htaken : ({ s with hostReqs := rest } : State).Inv := { h with }
      obtain ⟨t, ht, -⟩ := runsAs_wholeRequest (format_of_decodeReq w) htaken hb hr
      exact ⟨t, (step_request hport hq).trans ht⟩

/-! ### Which procedure is enabled (R126) -/

theorem inPhase_of_idle {p : Phase} {s : State} {r : Result} (h : s.busy = false) :
    inPhase p s r = .fault .position := by
  simp [inPhase, h]

/-- A phase row answers only in its own phase of a busy block. -/
theorem decodePhase_of_exec_next {i : Instr} {s t : State} (hi : i.format = .phase)
    (h : exec i s = .next t) : decodePhase s.phase.code = .instr i := by
  cases i with
  | pinit | wstart | wshift | wack | wstop =>
    obtain ⟨-, hp, -⟩ := inPhase_next h
    rw [hp]
    rfl
  | _ => cases hi

theorem afterStart_answers (s : State) : ∃ t, afterStart s = .next t := by
  by_cases hz : s.txLen = 0
  · exact ⟨_, afterStart_of_empty hz⟩
  · exact ⟨_, afterStart_of_bytes hz⟩

/-- Behind an acknowledgement that still counts a byte of the frame the next place is in the buffer (R53). -/
theorem afterAck_countAck_answers {s : State} (hi : s.txIdx.toNat < s.txLen.toNat)
    (h6 : s.txLen.toNat ≤ 6) : ∃ t, afterAck (countAck s) = .next t := by
  rw [countAck_eq]
  by_cases hlast : s.txIdx + 1 = s.txLen
  · exact ⟨_, afterAck_of_last hlast⟩
  · obtain ⟨b, hbyte⟩ := s.txBuf.get?_eq_some_of_lt (i := (s.txIdx + 1).toNat) (by bv_omega)
    exact ⟨_, afterAck_of_more hlast hbyte⟩

section Answers
variable {s : State}

theorem exec_pinit_answers (hb : s.busy = true) (hp : s.phase = .pinit) (hk : s.step.toNat < 4) :
    ∃ t, exec .pinit s = .next t := by
  simp only [exec, execPinit, inPhase_of hb hp]
  interval_cases s.step.toNat <;> exact ⟨_, rfl⟩

theorem exec_wstart_answers (hb : s.busy = true) (hp : s.phase = .pstart) (hk : s.step.toNat < 4) :
    ∃ t, exec .wstart s = .next t := by
  simp only [exec, execWstart, inPhase_of hb hp]
  interval_cases s.step.toNat
  iterate 3 exact ⟨_, rfl⟩
  exact afterStart_answers _

theorem exec_wshift_answers (hb : s.busy = true) (hp : s.phase = .pshift) (hk : s.step.toNat < 5) :
    ∃ t, exec .wshift s = .next t := by
  simp only [exec, execWshift, inPhase_of hb hp]
  interval_cases s.step.toNat <;> exact ⟨_, rfl⟩

theorem exec_wack_answers (hb : s.busy = true) (hp : s.phase = .pack) (hk : s.step.toNat < 5)
    (hi : s.txIdx.toNat < s.txLen.toNat) (h6 : s.txLen.toNat ≤ 6) :
    ∃ t, exec .wack s = .next t := by
  simp only [exec, execWack, inPhase_of hb hp]
  interval_cases s.step.toNat
  iterate 4 exact ⟨_, rfl⟩
  exact afterAck_countAck_answers (s := emit _ s) hi h6

theorem exec_wstop_answers (hb : s.busy = true) (hp : s.phase = .pstop) (hk : s.step.toNat < 7) :
    ∃ t, exec .wstop s = .next t := by
  simp only [exec, execWstop, inPhase_of hb hp]
  interval_cases s.step.toNat <;> exact ⟨_, rfl⟩

/-- At every position of the rules its phase row answers, whether or not reset is asserted. -/
theorem exec_answers_of_position (hb : s.busy = true) (hpos : PositionInv s) :
    ∃ i, i.format = .phase ∧ ∃ t, exec i s = .next t := by
  unfold PositionInv at hpos
  split at hpos
  next => exact hpos.elim
  next hp =>
    obtain ⟨-, hk, -⟩ := hpos
    exact ⟨.pinit, rfl, exec_pinit_answers hb hp hk⟩
  next hp =>
    obtain ⟨-, hk, -⟩ := hpos
    exact ⟨.wstart, rfl, exec_wstart_answers hb hp hk⟩
  next hp =>
    obtain ⟨-, hk, -⟩ := hpos
    exact ⟨.wshift, rfl, exec_wshift_answers hb hp hk⟩
  next hp =>
    obtain ⟨⟨-, h6⟩, hk, hi, -⟩ := hpos
    exact ⟨.wack, rfl, exec_wack_answers hb hp hk hi h6⟩
  next hp =>
    obtain ⟨-, hk, -⟩ := hpos
    exact ⟨.wstop, rfl, exec_wstop_answers hb hp hk⟩

end Answers

/-! ### The end of a request in flight (R124, R125, R206) -/

/-- When a frame is over the request goes on with a further frame, or it is over too, with `OK`. -/
theorem frameOver_runs_or_finishes (s : State) :
    (frameOver s).resetIn = s.resetIn ∧
      ((frameOver s).busy = true ∨ (frameOver s).busy = false ∧ (frameOver s).status = .ok) := by
  cases hf : s.further with
  | nothing => simp [frameOver_of_nothing hf]
  | addrFrame => simp [frameOver_of_addrFrame hf]
  | segFrame => simp [frameOver_of_segFrame hf]

/-- A request in flight stays in flight until it ends with `OK`. -/
theorem FlightStep.runs_or_finishes {s t : State} (h : FlightStep s t) (hrun : Running s) :
    Running t ∨ t.busy = false ∧ t.status = .ok := by
  cases h with
  | setUp hp hk ht => subst ht; exact .inr ⟨rfl, rfl⟩
  | frameEnd hp hk ht =>
    subst ht
    obtain ⟨hreset, hend⟩ := frameOver_runs_or_finishes (emit (dataWrite true s) s)
    exact hend.imp_left fun hb => ⟨hb, hreset.trans hrun.2⟩
  | row _ _ _ ht | startEmpty _ _ _ ht | startByte _ _ _ ht | nextBit _ _ _ ht | lastBit _ _ _ ht
  | nextByte _ _ _ _ _ ht | lastByte _ _ _ ht => subst ht; exact .inl hrun

/-! ### The obligations of 41_wire_transport -/

/-- Settles O20, request by request. -/
theorem checksAreMadeInOrder : Obligations.ChecksAreMadeInOrder := by
  intro i s hi hb hfont
  change ChecksFirst i s
  cases i with
  | init cp dp fs => exact checksFirst_init cp dp fs hb
  | bright level =>
    exact checksFirst_of_body hb rfl rfl (accepted_startFrame ..)
      (fun hl => by simp [firstError, hl]) (fun hl => by simp [firstError, hl])
  | digits t0 t1 t2 t3 t4 =>
    exact checksFirst_of_execShow hb hfont (exec_digits ..)
      (fun hl => by simp [firstError, hl]) (fun hl => by simp [firstError, hl])
  | int value =>
    exact checksFirst_of_execShow hb hfont (exec_int ..)
      (fun hl => by simp [firstError, hl]) (fun hl => by simp [firstError, hl])
  | colon enabled =>
    exact checksFirst_of_body hb rfl rfl (accepted_startShow ..)
      (fun hl => by simp [firstError, hl]) (fun hl => by simp [firstError, hl])
  | reserved5 | reserved6 | reserved7 =>
    exact checksFirst_of_error (by simp [firstError]) (rejectOpcode_of_idle hb)
  | _ => cases hi

/-- Settles O32. -/
theorem startRunEmitsTheStartCondition : Obligations.StartRunEmitsTheStartCondition :=
  fun _ h hp hk => ⟨fun hz => pstart_runs h hp hk (afterStart_of_empty hz),
    fun hz => pstart_runs h hp hk (afterStart_of_bytes hz)⟩

/-- Settles O34. -/
theorem ackRunPulsesTheClock : Obligations.AckRunPulsesTheClock :=
  fun _ h hp hk => ⟨fun hlast => pack_runs h hp hk (afterAck_of_last hlast),
    fun _ hmore hbyte => pack_runs h hp hk (afterAck_of_more hmore hbyte)⟩

/-- Settles O35: without a further frame the request is over with its frame. -/
theorem stopRunEmitsTheStopCondition : Obligations.StopRunEmitsTheStopCondition := by
  intro s h hp hk hf
  have hrun := pstop_runs h hp hk
  rwa [frameOver_of_nothing (by exact hf)] at hrun

/-- Settles O36: the step that takes the `INIT`, then its pin set-up; the levels are those of rest (O44). -/
theorem initRunSetsUpThePins : Obligations.InitRunSetsUpThePins := by
  intro s w rest cp dp fs hport hl hq hdec hfs
  have ⟨hb, hr, _⟩ := hport
  obtain ⟨hclock, hdata, -⟩ := linesRestLowAfterInitAndHighAfterAFrame s.trace cp dp 0 []
  refine ⟨?_, fun q hpin => ?_⟩
  · have htake : step s = .next (startPinSetup cp dp fs { s with hostReqs := rest }) := by
      rw [step_request hport hq, Decoded.instr.inj hdec]
      exact exec_init_of_font hb hl hfs
    have hrun := pinit_runs (s := startPinSetup cp dp fs { s with hostReqs := rest }) ⟨rfl, hr⟩ rfl rfl
    simpa [finish, startPinSetup, pinSetupEvents, hb] using runs_succ htake hrun
  · obtain rfl | rfl := hpin
    · exact ⟨by simp [pinDir], hclock⟩
    · exact ⟨by simp [pinDir], hdata⟩

/-- Settles O37: without a further frame the request is over with its frame. -/
theorem frameRunEmitsExactlyItsFrame : Obligations.FrameRunEmitsExactlyItsFrame := by
  intro s h hp hk hi h6 _ hf
  have hrun := frame_runs h hp hk hi h6
  rwa [frameOver_of_nothing (by exact hf)] at hrun

/-- Settles O43: the start and the stop move the data line, the bytes between them only the clock. -/
theorem frameWaveformHasOneStartAndOneStop : Obligations.FrameWaveformHasOneStartAndOneStop := by
  intro c d t bytes level h
  obtain ⟨hstart, hstartRises⟩ := wstartEvents_waveform h t level
  have hbytes := dataQuiet_flatMap_byteEvents h t bytes
  have hstop := wstopEvents_waveform h t
  refine ⟨?_, ?_, ?_⟩
  · simp [wframeEvents, dataChangesWhileHigh_append, hstart, hbytes _, hstop _]
  · simp only [wframeEvents, clockRises_append, hstartRises, hbytes _, hstop _]
    split <;> omega
  · simp [wframeEvents, linesEnd_append, hstop _]

/-- Settles O47: the reset, a row of the sequencer, or what an idle block does. -/
theorem noStepStopsUnderTheInvariant : Obligations.NoStepStopsUnderTheInvariant := by
  intro s h hd
  cases hr : s.resetIn with
  | true => exact ⟨_, step_of_reset hr⟩
  | false =>
    cases hb : s.busy with
    | true =>
      obtain ⟨t, ht, -⟩ := flightStep ⟨hb, hr⟩ (h.position hb)
      exact ⟨t, ht⟩
    | false => exact step_answers_of_idle h hd hr hb

/-- Settles O48: the row of the current phase answers, and a row that answers is the one the phase code
decodes to. -/
theorem exactlyOneProcedureIsEnabledWhileBusy : Obligations.ExactlyOneProcedureIsEnabledWhileBusy := by
  refine ⟨fun s h hb => ?_, fun s i hb hi => ?_⟩
  · obtain ⟨i, hi, t, ht⟩ := exec_answers_of_position hb (h.position hb)
    refine ⟨i, ⟨hi, t, ht⟩, fun j ⟨hj, u, hu⟩ => ?_⟩
    have hcode := decodePhase_of_exec_next hi ht
    have hcode' := decodePhase_of_exec_next hj hu
    exact Decoded.instr.inj (hcode'.symm.trans hcode)
  · cases i with
    | pinit | wstart | wshift | wack | wstop => exact inPhase_of_idle hb
    | _ => cases hi

/-- Settles O50, by induction on the events left: each step emits one, and the request ends where none is
left. -/
theorem requestInFlightFinishes : Obligations.RequestInFlightFinishes := by
  intro s h hrun
  induction hn : eventsLeft s generalizing s with
  | zero =>
    have := eventsLeft_pos (h.position hrun.1)
    omega
  | succ n ih =>
    have hpos := h.position hrun.1
    obtain ⟨u, hstep, hflight⟩ := flightStep hrun hpos
    obtain ⟨e, htrace⟩ := (traceOnlyGrows s u hrun.2 hstep).1 hrun.1
    have hinv := stepKeepsTheInvariant s u h hstep
    have hleft : eventsLeft u = n := by
      have := hflight.eventsLeft_add_one hpos
      omega
    obtain hrun' | ⟨hidle, hok⟩ := hflight.runs_or_finishes hrun
    · obtain ⟨t, hruns, hidle, hok, hack, hlen⟩ := ih u hinv hrun' hleft
      exact ⟨t, runs_succ hstep hruns, hidle, hok, hack, by simp [hlen, htrace]; omega⟩
    · obtain rfl : n = 0 := hleft.symm.trans ((eachStepEmitsOneOfTheEventsLeft.2 u hinv).1 hidle)
      exact ⟨u, runs_one hstep, hidle, hok, hinv.ack, by simp [htrace]⟩

/-- Settles O12. -/
theorem initAcceptanceStoresPinsAndFont : Obligations.InitAcceptanceStoresPinsAndFont :=
  fun _ _ _ _ hb hl hfs => exec_init_of_font hb hl hfs

/-- Settles O27, row by row. -/
theorem pstartSteps : Obligations.PstartSteps := by
  intro s hb hp
  refine ⟨fun hk => ?_, fun hk => ?_, fun hk => ?_, fun hk hz => ?_, fun hk hz => ?_⟩ <;>
    obtain ⟨u, rfl⟩ := exists_eq_atPosition hb hp hk
  iterate 3 · rfl
  · exact afterStart_of_empty (s := emit _ _) hz
  · exact afterStart_of_bytes (s := emit _ _) hz

/-- Settles O28, row by row. -/
theorem pshiftSteps : Obligations.PshiftSteps := by
  intro s hb hp
  refine ⟨fun hk => ?_, fun hk => ?_, fun hk => ?_, fun hk => ?_, fun hk hlast => ?_,
    fun hk hmore => ?_⟩ <;>
    obtain ⟨u, rfl⟩ := exists_eq_atPosition hb hp hk
  iterate 4 · rfl
  · exact congrArg Host.Outcome.next (afterBit_of_eighth (s := emit _ _) hlast)
  · exact congrArg Host.Outcome.next (afterBit_of_not_eighth (s := emit _ _) hmore)

/-- Settles O29, row by row; the acknowledgement leaves `ackAcc` alone. -/
theorem packSteps : Obligations.PackSteps := by
  intro s hb hp
  refine ⟨fun hk => ?_, fun hk => ?_, fun hk => ?_, fun hk => ?_, fun hk hlast => ?_,
    fun b hk hmore hbyte => ?_⟩ <;>
    obtain ⟨u, rfl⟩ := exists_eq_atPosition hb hp hk
  iterate 4 · rfl
  · change afterAck (countAck _) = _
    rw [countAck_eq]
    exact afterAck_of_last hlast
  · change afterAck (countAck _) = _
    rw [countAck_eq]
    exact afterAck_of_more hmore hbyte

/-- Settles O30, row by row; the last row goes on with what the request has still to send. -/
theorem pstopSteps : Obligations.PstopSteps := by
  intro s hb hp
  refine ⟨fun hk => ?_, fun hk => ?_, fun hk => ?_, fun hk => ?_, fun hk => ?_, fun hk => ?_,
    fun hk hf => ?_, fun hk hf => ?_, fun hk hf => ?_⟩ <;>
    obtain ⟨u, rfl⟩ := exists_eq_atPosition hb hp hk
  iterate 6 · rfl
  · exact congrArg Host.Outcome.next (frameOver_of_nothing (s := emit _ _) hf)
  · exact congrArg Host.Outcome.next (frameOver_of_addrFrame (s := emit _ _) hf)
  · exact congrArg Host.Outcome.next (frameOver_of_segFrame (s := emit _ _) hf)

/-- Settles O31: the acceptance of O12, then the rows. -/
theorem pinitSteps : Obligations.PinitSteps := by
  refine ⟨fun cp dp fs s t hb hl hfs h => ?_, fun s hb hp => ?_⟩
  · rw [exec_init_of_font hb hl hfs] at h
    cases h
    exact ⟨rfl, rfl, rfl, rfl, rfl⟩
  · refine ⟨fun hk => ?_, fun hk => ?_, fun hk => ?_, fun hk => ?_⟩ <;>
      obtain ⟨u, rfl⟩ := exists_eq_atPosition hb hp hk
    iterate 4 · rfl

end Sys2Proof.Machine

/-! PROOFS. Content and brightness requests carried out whole on an initialised block: how many events they
emit, and what `COLON` does to the segment buffer; the obligations of 42_display_controller they settle stand
at the end. -/

namespace Sys2Proof.Machine

/-! ### A show carried out whole (R144) -/

/-- The events of a show frame in each frame mode (R115, R144). -/
theorem showFrameEvents_length (m : FrameMode) (c d : PinId) (t : Nat) (b : SegBuf) :
    (showFrameEvents m c d t b).length = if m = .single then 281 else 303 := by
  cases m <;> simp [showFrameEvents, showBytes, SegBuf.toList]

theorem sendShow_trace_length (s : State) :
    (sendShow s).trace.length = s.trace.length + if s.params.frameMode = .single then 281 else 303 := by
  rw [sendShow_trace, List.length_append, showFrameEvents_length]

theorem sendShow_seg (s : State) : (sendShow s).seg = s.seg := by
  cases hm : s.params.frameMode <;> simp [sendShow, hm, sendFrame]

theorem sendShow_lifecycle (s : State) : (sendShow s).lifecycle = s.lifecycle := by
  cases hm : s.params.frameMode <;> simp [sendShow, hm, sendFrame]

theorem wholeShow_of_selected {render : FontTable → SegBuf} {s : State} {f : FontTable}
    (h : selectedFont s = some f) :
    wholeShow render s = completed (sendShow { s with seg := render f }) := by
  simp [wholeShow, h]

/-! ### `COLON` on an initialised block (R151, R152) -/

section Initialized
variable {s : State} (hl : s.lifecycle = .initialized)
include hl

theorem checkedBody_of_initialized (t : State) : checkedBody s t = t := by
  simp [checkedBody, hl]

theorem wholeRequest_colon (e : BitVec 1) : wholeRequest (.colon e) s =
    completed (sendShow { s with seg := { s.seg with d1 := forceColon e s.seg.d1 } }) :=
  checkedBody_of_initialized hl _

theorem wholeRequest_colon_seg (e : BitVec 1) :
    (wholeRequest (.colon e) s).seg = { s.seg with d1 := forceColon e s.seg.d1 } := by
  rw [wholeRequest_colon hl]
  exact sendShow_seg _

theorem wholeRequest_colon_lifecycle (e : BitVec 1) :
    (wholeRequest (.colon e) s).lifecycle = .initialized := by
  rw [wholeRequest_colon hl]
  exact (sendShow_lifecycle _).trans hl

end Initialized

/-- Of two colon settings the last one stands. -/
theorem forceColon_forceColon (e e' : BitVec 1) (b : Byte) :
    forceColon e' (forceColon e b) = forceColon e' b := by
  refine BitVec.eq_of_getLsbD_eq fun k hk => ?_
  simp only [forceColon_bit _ _ hk]
  split <;> rfl

/-- Two `COLON` requests run on the machine leave the buffer as the second alone makes it. -/
theorem colon_colon_runs {s : State} {w w' : ReqWord} {e e' : BitVec 1} (hinv : s.Inv) (hport : PortOpen s)
    (hl : s.lifecycle = .initialized) (hq : s.hostReqs = [w, w'])
    (hw : decodeReq w = .colon e) (hw' : decodeReq w' = .colon e') :
    ∃ n t, Runs n s t ∧ t.busy = false ∧ t.hostReqs = [] ∧
      t.seg = { s.seg with d1 := forceColon e' s.seg.d1 } := by
  obtain ⟨n, hrun, hidle⟩ := everyRunOfRequestsEndsInTheWholeRun s hinv hport
  have hwhole : wholeRun (s.hostReqs.map decodeReq) { s with hostReqs := [] } =
      wholeRequest (.colon e') (wholeRequest (.colon e) { s with hostReqs := [] }) := by
    simp [wholeRun, hq, hw, hw']
  rw [hwhole] at hrun hidle
  refine ⟨n, _, hrun, hidle, by simp, ?_⟩
  have htaken : ({ s with hostReqs := [] } : State).lifecycle = .initialized := hl
  rw [wholeRequest_colon_seg (wholeRequest_colon_lifecycle htaken e), wholeRequest_colon_seg htaken,
    forceColon_forceColon]

/-! ### The obligations of 42_display_controller -/

/-- Settles O40: one frame of one byte for `BRIGHT`, the frames of a show for the others. -/
theorem wholeRequestsEmitTheirEventCounts : Obligations.WholeRequestsEmitTheirEventCounts := by
  intro s hl hfont
  obtain ⟨f, hf⟩ := selectedFont_of_lt hfont
  have hshow (render : FontTable → SegBuf) : (checkedBody s (wholeShow render s)).trace.length =
      s.trace.length + if s.params.frameMode = .single then 281 else 303 := by
    rw [checkedBody_of_initialized hl, wholeShow_of_selected hf]
    exact sendShow_trace_length _
  refine ⟨fun l => ?_, fun _ _ _ _ _ => hshow _, fun _ => hshow _, fun e => ?_⟩
  · simp [wholeRequest, checkedBody_of_initialized hl, completed, sendFrame]
  · rw [wholeRequest_colon hl]
    exact sendShow_trace_length _

/-- Settles O41: both orders are runs of two `COLON` requests, of which the second one stands. -/
theorem colonRoundTripKeepsTheDigits : Obligations.ColonRoundTripKeepsTheDigits := by
  intro s hinv hport hl
  have hon : decodeReq 0x40000000001#43 = .colon 1 := by decide
  have hoff : decodeReq 0x40000000000#43 = .colon 0 := by decide
  exact ⟨fun hq => colon_colon_runs hinv hport hl hq hon hoff,
    fun hq => colon_colon_runs hinv hport hl hq hoff hon⟩

/-- Settles O23: the formula is the definition above 0, and the table its values. -/
theorem controlByteTable : Obligations.ControlByteTable :=
  ⟨rfl, fun _ hk _ => if_neg (Nat.one_le_iff_ne_zero.mp hk), by decide⟩

end Sys2Proof.Machine

/-! PROOFS. The errors of the lifecycle and of the font selection, each writing `status` alone; the obligations
of 60_exceptions they settle stand at the end. -/

namespace Sys2Proof.Machine

/-! ### The lifecycle error of a content or brightness request (R139, R172) -/

/-- Before `INIT` the body of the request does not run, so whether the selected font exists plays no part. -/
theorem whenIdle_whenInitialized_of_uninitialized {s : State} {r : Result} (hb : s.busy = false)
    (hl : s.lifecycle = .uninitialized) :
    whenIdle s (whenInitialized s r) = .next { s with status := .misuse } :=
  (whenIdle_of_idle hb).trans (whenInitialized_of_uninitialized hl)

/-! ### The obligations of 60_exceptions -/

/-- Settles O18: the four requests share the gates of a content or brightness request; `INIT` has its own. -/
theorem requestsInTheWrongLifecycleAreMisuse : Obligations.RequestsInTheWrongLifecycleAreMisuse := by
  refine ⟨fun s hb hl => ⟨fun l => ?_, fun a b c d e => ?_, fun v => ?_, fun e => ?_⟩,
    fun _ _ _ _ hb hl => exec_init_of_initialized hb hl⟩
  iterate 4 · exact whenIdle_whenInitialized_of_uninitialized hb hl

/-- Settles O19: a refused `INIT` leaves `busy`, `lifecycle` and the fonts alone, so that the next one meets
the same checks. -/
theorem initWithAMissingFontIsIllegal : Obligations.InitWithAMissingFontIsIllegal := by
  intro cp dp fs s hb hl hmissing
  refine ⟨exec_init_of_missingFont hb hl (Nat.not_lt.mpr hmissing), fun cp' dp' fs' hfs => ?_⟩
  have haccepted := exec_init_of_font (s := { s with status := .illegal }) (cp := cp') (dp := dp') hb hl hfs
  exact ⟨_, haccepted, startPinSetup_phase .., startPinSetup_busy ..⟩

end Sys2Proof.Machine

/-! PROOFS. Reset, and what waits for a request; the obligations of 70_reset_and_hazards stand at the end. -/

namespace Sys2Proof.Machine

/-! ### No instruction leads back to `Uninitialized` (R203) -/

/-- Of all rows only the last one of `PINIT` writes the lifecycle, and it writes `Initialized` (R125). -/
theorem exec_keeps_initialized {i : Instr} {s t : State} (hl : s.lifecycle = .initialized)
    (h : exec i s = .next t) : t.lifecycle = .initialized := by
  cases hi : i.format with
  | req =>
    obtain ⟨-, -, hkeep, -⟩ := requestFrame i s t hi h
    exact hkeep.trans hl
  | wire =>
    obtain ⟨-, -, hkeep, -⟩ := directCallFrame.1 i s t hi h
    exact hkeep.trans hl
  | phase =>
    by_cases hlast : i = .pinit ∧ s.step = 3
    · obtain ⟨rfl, hk⟩ := hlast
      obtain ⟨-, -, rfl⟩ := exec_pinit_last hk h
      rfl
    · obtain ⟨-, -, -, -, -, -, -, -, -, -, hkeep, -⟩ := sequencerFrame i s t hi h
      exact (hkeep (not_and_or.mp hlast)).trans hl
  | lookup =>
    cases i <;> cases hi
    rw [directCallFrame.2 _ s t h]
    exact hl

/-- Taking a word from where it stood writes no register (R72). -/
theorem fetch_lifecycle {s s' : State} {r : RawWord} (h : fetch s = some (r, s')) :
    s'.lifecycle = s.lifecycle := by
  obtain ⟨-, rfl, -⟩ | ⟨-, -, w, rest, -, -, rfl⟩ | ⟨-, d, -, -, rfl⟩ := fetch_cases h <;> rfl

theorem step_keeps_initialized {s t : State} (hr : s.resetIn = false) (hl : s.lifecycle = .initialized)
    (h : step s = .next t) : t.lifecycle = .initialized := by
  obtain ⟨hreset, -⟩ | ⟨-, -, rfl⟩ | ⟨-, r, s', i, hf, -, he⟩ := step_cases h
  · simp [hr] at hreset
  · exact hl
  · exact exec_keeps_initialized ((fetch_lifecycle hf).trans hl) he

/-! ### The obligations of 70_reset_and_hazards -/

/-- Settles O51: outside reset an initialised block stays initialised, and reset writes the reset value. -/
theorem onlyResetLeavesInitialized : Obligations.OnlyResetLeavesInitialized := by
  refine ⟨fun s t hl h ht => ?_, fun s hr => ⟨assertReset s, step_of_reset hr, rfl⟩⟩
  by_contra hr
  have hkeep := step_keeps_initialized (by simpa using hr) hl h
  simp [ht] at hkeep

/-- Settles O8. -/
theorem assertedResetRestoresEveryRegister : Obligations.AssertedResetRestoresEveryRegister :=
  fun _ => step_of_reset

/-- Settles O9. -/
theorem idleBlockWaitsForARequest : Obligations.IdleBlockWaitsForARequest :=
  fun _ => step_of_nothing

end Sys2Proof.Machine
